-- ==== Sys2Proof/Word.lean ====
section
/-! DEFINITION. The machine's words: names for the widths the spec uses (00_scope.md R11, R7). -/

namespace Sys2Proof

/-- A byte, an unsigned integer 0..255 (R11). -/
abbrev Byte := BitVec 8

/-- A 16-bit pattern: a data word or a component of a Value Store slot (R33). -/
abbrev Half := BitVec 16

/-- A 32-bit value: a timestamp, or what port `RDATA` carries (R33, R47). -/
abbrev Word := BitVec 32

end Sys2Proof
end

