-- ==== Sys2Proof/Config.lean ====
section
/-! DEFINITION. The configuration: the parameters the spec fixes or leaves open (00_scope.md R7, R8, R9) with
the constraints that make a configuration one the model runs with, and the free values (opaque constants: nothing in
Lean can evaluate one or prove a value of it). -/

namespace Sys2Proof

/-- Which part of a data word a scalar selector takes (R8, R171). -/
inductive ScalPart where
  | full | lo | hi
deriving DecidableEq, Repr

/-- A scalar selector `(k, part)`: data word `Wk` and the part of it (R8). -/
structure ScalSel where
  k : Nat
  part : ScalPart
deriving DecidableEq, Repr

/-- The parameters of an instance, constant during a run (R7, R8, R253). -/
structure Config where
  /-- `MAX_PAYLOAD`, 270 for this hardware (R7, D6) -/
  maxPayload : Nat
  /-- `T_MAX`, the transport's per-transaction byte limit (R8) -/
  tMax : Nat
  ridBaseTimestamp : Byte
  ridProductIdResponse : Byte
  ridCommandResponse : Byte
  ridFrsReadResponse : Byte
  ridAcc : Byte
  ridGyr : Byte
  ridMag : Byte
  ridLin : Byte
  ridRv : Byte
  ridRvv1 : Byte
  ridRvv2 : Byte
  ridRvv3 : Byte
  ridStep : Byte
  ridStab : Byte
  ridRawacc : Byte
  ridRawgyr : Byte
  ridRawmag : Byte
  ridAct : Byte
  ridGirv : Byte
  qpAcc : Byte
  qpLin : Byte
  qpGyr : Byte
  qpMag : Byte
  qpRot : Byte
  qpRadacc : Byte
  qpFgyr : Byte
  scalStep : ScalSel
  scalStab : ScalSel
  scalAct : ScalSel
deriving DecidableEq, Repr

/-- The fourteen sensor identifiers of the Reports channel, in the order of 30_encoding.md R80. -/
def Config.sensorIds (c : Config) : List Byte :=
  [c.ridAcc, c.ridLin, c.ridGyr, c.ridMag, c.ridRv, c.ridRvv1, c.ridRvv2, c.ridRvv3,
   c.ridStep, c.ridStab, c.ridAct, c.ridRawacc, c.ridRawgyr, c.ridRawmag]

/-- The three Control-channel identifiers, in the order of R76. -/
def Config.controlIds (c : Config) : List Byte :=
  [c.ridProductIdResponse, c.ridCommandResponse, c.ridFrsReadResponse]

/-- The seven Q-points (R8). -/
def Config.qPoints (c : Config) : List Byte :=
  [c.qpAcc, c.qpLin, c.qpGyr, c.qpMag, c.qpRot, c.qpRadacc, c.qpFgyr]

/-- The three scalar selectors (R8). -/
def Config.scalSels (c : Config) : List ScalSel := [c.scalStep, c.scalStab, c.scalAct]

/-- The constraints of R7, R8 and R9. A configuration that breaks one is refused (R9, U16; `MAX_PAYLOAD`: log 11). -/
structure Config.WellFormed (c : Config) : Prop where
  maxPayload : c.maxPayload = 270
  tMax : 4 ≤ c.tMax
  controlDistinct : c.controlIds.Nodup
  sensorDistinct : c.sensorIds.Nodup
  returnedNonzero : ∀ b ∈ c.controlIds ++ c.sensorIds ++ [c.ridGirv], b ≠ 0#8
  qPoints : ∀ q ∈ c.qPoints, q.toNat ≤ 149
  scalars : ∀ p ∈ c.scalSels, 1 ≤ p.k ∧ p.k ≤ 5

/-- `Config.WellFormed` as the check that `step` runs (U16). -/
def Config.check (c : Config) : Bool :=
  decide (c.maxPayload = 270) && decide (4 ≤ c.tMax) && decide (c.controlIds.Nodup) &&
  decide (c.sensorIds.Nodup) && (c.controlIds ++ c.sensorIds ++ [c.ridGirv]).all (· != 0#8) &&
  c.qPoints.all (fun q => decide (q.toNat ≤ 149)) &&
  c.scalSels.all (fun p => decide (1 ≤ p.k) && decide (p.k ≤ 5))

/-- PRESUMED (log 1): the suggested values of R8, which the spec marks `[from general knowledge, not in
source]`. They are the configuration of `State.reset` and the values behind `opcode_table.json`. -/
def Config.suggested : Config where
  maxPayload := 270
  tMax := 28
  ridBaseTimestamp := 0xFB
  ridProductIdResponse := 0xF8
  ridCommandResponse := 0xF1
  ridFrsReadResponse := 0xF3
  ridAcc := 0x01
  ridGyr := 0x02
  ridMag := 0x03
  ridLin := 0x04
  ridRv := 0x05
  ridRvv1 := 0x08
  ridRvv2 := 0x09
  ridRvv3 := 0x28
  ridStep := 0x11
  ridStab := 0x13
  ridRawacc := 0x14
  ridRawgyr := 0x15
  ridRawmag := 0x16
  ridAct := 0x1E
  ridGirv := 0x2A
  qpAcc := 8
  qpLin := 8
  qpGyr := 9
  qpMag := 4
  qpRot := 14
  qpRadacc := 12
  qpFgyr := 10
  scalStep := ⟨3, .full⟩
  scalStab := ⟨1, .lo⟩
  scalAct := ⟨1, .hi⟩

/-- One item of the transport read stream: a byte the sensor module sends, or a transport fault at this point of
the stream (20_memory.md R50, R58). -/
inductive StreamItem where
  | byte (b : Byte)
  | fault
deriving DecidableEq, Repr, Inhabited

/-- The transport's answer to a `T_WRITE` (20_memory.md R59). -/
inductive WrAnswer where
  | ok | nack
deriving DecidableEq, Repr, Inhabited

/-- Free value (log 5): what byte `a` of `BUF` holds after the `n`-th power-on, before it is written (R45, U7). -/
opaque Config.powerOnByte : Nat → Nat → Byte

/-- Free value (log 6): what the 16-bit Value Store field number `i` holds after the `n`-th power-on (R45, U8). -/
opaque Config.powerOnHalf : Nat → Nat → Half

/-- Free value (log 6): what the accuracy field number `i` holds after the `n`-th power-on (R45, U8). -/
opaque Config.powerOnAccy : Nat → Nat → BitVec 2

/-- Free value (log 6): what the timestamp field number `i` holds after the `n`-th power-on (R45, U8). -/
opaque Config.powerOnTs : Nat → Nat → Word

/-- Free value (log 3): the `n`-th item of the read stream that no scripted item supplies (R4, R58, U4). -/
opaque Config.transportItem : Nat → StreamItem

/-- Free value (log 3): the `n`-th answer to a `T_WRITE` that no scripted answer supplies (R4, R59). -/
opaque Config.transportWrite : Nat → WrAnswer

end Sys2Proof
end

