-- ==== Sys2Proof/Syntax.lean ====
section
/-! DEFINITION. Syntax: one constructor of `Instr` per row of spec/opcode_table.json (30_encoding.md R76, R80, R88),
the rows of the two packet maps as finite types, and the ports a host operation is presented on (10_state.md R47). -/

namespace Sys2Proof

/-- The instructions: twelve host operations with their operands (R88, R89), eleven packet classes (R76), fifteen
sensor-report types (R80). The operands of a packet class and of a report type are in the held packet. -/
inductive Instr where
  | connect
  | send (ch : Byte) (n : Half)
  | recv
  | parse
  | ldb (addr : Half)
  | stb (addr : Half) (byte : Byte)
  | rdsr (sel : Byte)
  | cvt (raw : Half) (q : Byte)
  | getr (slot comp : Byte)
  | getf (slot comp : Byte)
  | geta (slot : Byte)
  | gett (slot : Byte)
  | pktCmd
  | pktExe
  | pktCtlProdid
  | pktCtlCmdresp
  | pktCtlFrsresp
  | pktCtlOther
  | pktRptBasets
  | pktRptOther
  | pktWake
  | pktGyro
  | pktBadchan
  | rptAcc
  | rptLin
  | rptGyr
  | rptMag
  | rptRv
  | rptRvv1
  | rptRvv2
  | rptRvv3
  | rptStep
  | rptStab
  | rptAct
  | rptRawacc
  | rptRawgyr
  | rptRawmag
  | rptOther
deriving DecidableEq, Repr

/-- The eleven rows of the packet class map (R76), in its order. -/
inductive PktRow where
  | cmd | exe | ctlProdid | ctlCmdresp | ctlFrsresp | ctlOther | rptBasets | rptOther | wake | gyro | badchan
deriving DecidableEq, Repr

/-- The fifteen rows of the sensor-report routing map (R80), in its order. -/
inductive RptRow where
  | acc | lin | gyr | mag | rv | rvv1 | rvv2 | rvv3 | step | stab | act | rawacc | rawgyr | rawmag | other
deriving DecidableEq, Repr

/-- The instruction of a packet class row. -/
def PktRow.instr : PktRow → Instr
  | .cmd => .pktCmd
  | .exe => .pktExe
  | .ctlProdid => .pktCtlProdid
  | .ctlCmdresp => .pktCtlCmdresp
  | .ctlFrsresp => .pktCtlFrsresp
  | .ctlOther => .pktCtlOther
  | .rptBasets => .pktRptBasets
  | .rptOther => .pktRptOther
  | .wake => .pktWake
  | .gyro => .pktGyro
  | .badchan => .pktBadchan

/-- The instruction of a sensor-report row. -/
def RptRow.instr : RptRow → Instr
  | .acc => .rptAcc
  | .lin => .rptLin
  | .gyr => .rptGyr
  | .mag => .rptMag
  | .rv => .rptRv
  | .rvv1 => .rptRvv1
  | .rvv2 => .rptRvv2
  | .rvv3 => .rptRvv3
  | .step => .rptStep
  | .stab => .rptStab
  | .act => .rptAct
  | .rawacc => .rptRawacc
  | .rawgyr => .rptRawgyr
  | .rawmag => .rptRawmag
  | .other => .rptOther

/-- What the host drives on the block's input ports when it presents one operation (R47). Every port carries a value;
a port the operation does not use is ignored (R89). -/
structure HostCmd where
  op : Byte
  ch : Byte := 0
  n : Half := 0
  addr : Half := 0
  wdata : Byte := 0
  sel : Byte := 0
  raw : Half := 0
  q : Byte := 0
  slot : Byte := 0
  comp : Byte := 0
deriving DecidableEq, Repr

end Sys2Proof
end

