-- ==== Sys2Proof/WellFormed.lean ====
section
/-! DEFINITION. Which operands a host operation may legally carry (30_encoding.md R89, R90, 10_state.md R46). An
instruction with an illegal operand still runs: its meaning is the refusal the spec describes (60_exceptions.md R228). -/

namespace Sys2Proof

/-- The legal selects of `RDSR`: the rows of 10_state.md R46. -/
def legalStatusSel (sel : Byte) : Bool :=
  decide (sel.toNat ≤ 0x05) || (decide (0x10 ≤ sel.toNat) && decide (sel.toNat ≤ 0x19))

/-- How many components the slot with select code `slot` has: the filled cells of a row of R90 (no slot above 11). -/
def componentCount (slot : Byte) : Nat :=
  if slot.toNat ≤ 3 then 3
  else if slot.toNat = 4 then 5
  else if slot.toNat ≤ 8 then 3
  else if slot.toNat ≤ 11 then 1
  else 0

/-- `(slot, comp)` is a filled cell of R90. -/
def legalCell (slot comp : Byte) : Bool := decide (comp.toNat < componentCount slot)

/-- `(slot, comp)` is a cell with a Q-point (R90, 44_qformat.md R189). -/
def convertibleCell (slot comp : Byte) : Bool := decide (slot.toNat ≤ 5) && legalCell slot comp

/-- The slot has an accuracy and a timestamp: every slot but `FGYR` (R90, R190, R191). -/
def stampedSlot (slot : Byte) : Bool := decide (slot.toNat ≤ 11) && decide (slot.toNat ≠ 5)

/-- The operands are in the legal ranges of R89 and R90. `CVT` takes every operand there (its own refusal, R184, is a
matter of the pair of values), and the packet and report rows have no operand. -/
def Instr.wellFormed (cfg : Config) : Instr → Bool
  | .connect => true
  | .send ch n => decide (ch.toNat ≤ 5) && decide (n.toNat ≤ cfg.maxPayload)
  | .recv => true
  | .parse => true
  | .ldb addr => decide (addr.toNat < cfg.maxPayload)
  | .stb addr _ => decide (addr.toNat < cfg.maxPayload)
  | .rdsr sel => legalStatusSel sel
  | .cvt _ _ => true
  | .getr slot comp => legalCell slot comp
  | .getf slot comp => convertibleCell slot comp
  | .geta slot => stampedSlot slot
  | .gett slot => stampedSlot slot
  | .pktCmd => true
  | .pktExe => true
  | .pktCtlProdid => true
  | .pktCtlCmdresp => true
  | .pktCtlFrsresp => true
  | .pktCtlOther => true
  | .pktRptBasets => true
  | .pktRptOther => true
  | .pktWake => true
  | .pktGyro => true
  | .pktBadchan => true
  | .rptAcc => true
  | .rptLin => true
  | .rptGyr => true
  | .rptMag => true
  | .rptRv => true
  | .rptRvv1 => true
  | .rptRvv2 => true
  | .rptRvv3 => true
  | .rptStep => true
  | .rptStab => true
  | .rptAct => true
  | .rptRawacc => true
  | .rptRawgyr => true
  | .rptRawmag => true
  | .rptOther => true

end Sys2Proof
end

