-- ==== Sys2Proof/Decode.lean ====
section
/-! DEFINITION. The decoders of the block (30_encoding.md): the SHTP header (R70, R71), the host operation codes (R88),
the packet class map (R76), the sensor-report routing map (R80); after them the encoder, and the opcode table's own
reading of the two packet maps (R96). All are total; an operation code that names nothing is rejected by name. -/

namespace Sys2Proof

/-! ### The SHTP header -/

/-- The four header bytes in wire order (R70). -/
structure Header where
  b0 : Byte
  b1 : Byte
  b2 : Byte
  b3 : Byte
deriving DecidableEq, Repr

/-- Header bytes from a byte sequence; a missing byte (no `T_READ(4)` answers with fewer than four) reads as 0 (log 15). -/
def Header.ofBytes (bs : List Byte) : Header :=
  ⟨bs.getD 0 0, bs.getD 1 0, bs.getD 2 0, bs.getD 3 0⟩

/-- The header bytes in wire order. -/
def Header.bytes (h : Header) : List Byte := [h.b0, h.b1, h.b2, h.b3]

/-- The declared length `((byte1 & 0x7F) << 8) | byte0`, 15 bits (R71, 41_framer_rx.md R112). -/
def Header.declaredLength (h : Header) : Nat :=
  ((h.b1.toNat &&& 0x7F) <<< 8) ||| h.b0.toNat

/-- The continuation flag, bit 7 of byte 1: kept in `RXHDR` and read by no rule (R72). -/
def Header.continuation (h : Header) : Bool := h.b1.getLsbD 7

/-- The header as one little-endian 32-bit word `H` (R70). -/
def Header.word (h : Header) : Word := h.b3 ++ h.b2 ++ h.b1 ++ h.b0

/-- The header `SEND ch, n` builds, with `seq` the counter before its increment (R83, 40_framer_tx.md R101). -/
def Header.build (ch : Byte) (n : Nat) (seq : Byte) : Header :=
  { b0 := BitVec.ofNat 8 ((n + 4) &&& 0xFF)
    b1 := BitVec.ofNat 8 (((n + 4) >>> 8) &&& 0x7F)
    b2 := ch
    b3 := seq }

/-! ### Host operations -/

/-- Why a decoder rejects. -/
inductive Reject where
  /-- the operation code names no operation, `0x0C`..`0xFF` (45_host_access.md R205) -/
  | unknownOp (op : Byte)
deriving DecidableEq, Repr

/-- The host operation on the ports (R88, R89). -/
def decodeHost (c : HostCmd) : Except Reject Instr :=
  match c.op.toNat with
  | 0x00 => .ok .connect
  | 0x01 => .ok (.send c.ch c.n)
  | 0x02 => .ok .recv
  | 0x03 => .ok .parse
  | 0x04 => .ok (.ldb c.addr)
  | 0x05 => .ok (.stb c.addr c.wdata)
  | 0x06 => .ok (.rdsr c.sel)
  | 0x07 => .ok (.cvt c.raw c.q)
  | 0x08 => .ok (.getr c.slot c.comp)
  | 0x09 => .ok (.getf c.slot c.comp)
  | 0x0A => .ok (.geta c.slot)
  | 0x0B => .ok (.gett c.slot)
  | _ => .error (.unknownOp c.op)

/-! ### Packet classes and sensor reports -/

/-- The class row of a packet on channel `ch` whose first payload byte is `first` (`none`: the packet has no payload),
as the rows of R76 are tried (42_demux.md R130). -/
def decodePacket (cfg : Config) (ch : Byte) (first : Option Byte) : PktRow :=
  match ch.toNat with
  | 0 => .cmd
  | 1 => .exe
  | 2 =>
    if first = some cfg.ridProductIdResponse then .ctlProdid
    else if first = some cfg.ridCommandResponse then .ctlCmdresp
    else if first = some cfg.ridFrsReadResponse then .ctlFrsresp
    else .ctlOther
  | 3 => if first = some cfg.ridBaseTimestamp then .rptBasets else .rptOther
  | 4 => .wake
  | 5 => .gyro
  | _ => .badchan

/-- The class row of a decode word `DW` with `cnt` payload bytes held: bits 39:32 exist only if `cnt >= 1` (R76). -/
def decodePacketWord (cfg : Config) (dw : BitVec 40) (cnt : Nat) : PktRow :=
  decodePacket cfg (dw.extractLsb' 16 8) (if 1 ≤ cnt then some (dw.extractLsb' 32 8) else none)

/-- The routing row of an embedded report ID (R80, 43_report_decode.md R150). -/
def decodeReport (cfg : Config) (rid : Byte) : RptRow :=
  if rid = cfg.ridAcc then .acc
  else if rid = cfg.ridLin then .lin
  else if rid = cfg.ridGyr then .gyr
  else if rid = cfg.ridMag then .mag
  else if rid = cfg.ridRv then .rv
  else if rid = cfg.ridRvv1 then .rvv1
  else if rid = cfg.ridRvv2 then .rvv2
  else if rid = cfg.ridRvv3 then .rvv3
  else if rid = cfg.ridStep then .step
  else if rid = cfg.ridStab then .stab
  else if rid = cfg.ridAct then .act
  else if rid = cfg.ridRawacc then .rawacc
  else if rid = cfg.ridRawgyr then .rawgyr
  else if rid = cfg.ridRawmag then .rawmag
  else .other

/-- An encoded instruction in one of the three formats of R96: `HOST_OP` on the ports, `SHTP_PKT` as the 40-bit decode
word of a held packet of `cnt` payload bytes, `FEATURE_RPT` as the byte `BUF[5]`. -/
inductive Encoded where
  | host (c : HostCmd)
  | packet (dw : BitVec 40) (cnt : Nat)
  | report (rid : Byte)
deriving DecidableEq, Repr

/-- The decoder of all three formats. -/
def decode (cfg : Config) : Encoded → Except Reject Instr
  | .host c => decodeHost c
  | .packet dw cnt => .ok (decodePacketWord cfg dw cnt).instr
  | .report rid => .ok (decodeReport cfg rid).instr

/-! ### The encoder -/

/-- The decode word of a packet on channel `ch` with sequence byte 0 whose payload is `first` alone, or empty (R70,
R76). -/
def packetWord (ch : Byte) (first : Option Byte) : Encoded :=
  match first with
  | some b => .packet (b ++ 0x00#8 ++ ch ++ 0x00#8 ++ 0x05#8) 1
  | none => .packet (0x00#8 ++ 0x00#8 ++ ch ++ 0x00#8 ++ 0x04#8) 0

/-- The encoder: the ports of a host operation with every unused port 0, a shortest packet of a packet class, the
identifier of a report type. -/
def encode (cfg : Config) : Instr → Encoded
  | .connect => .host (HostCmd.mk 0x00 0 0 0 0 0 0 0 0 0)
  | .send ch n => .host (HostCmd.mk 0x01 ch n 0 0 0 0 0 0 0)
  | .recv => .host (HostCmd.mk 0x02 0 0 0 0 0 0 0 0 0)
  | .parse => .host (HostCmd.mk 0x03 0 0 0 0 0 0 0 0 0)
  | .ldb addr => .host (HostCmd.mk 0x04 0 0 addr 0 0 0 0 0 0)
  | .stb addr byte => .host (HostCmd.mk 0x05 0 0 addr byte 0 0 0 0 0)
  | .rdsr sel => .host (HostCmd.mk 0x06 0 0 0 0 sel 0 0 0 0)
  | .cvt raw q => .host (HostCmd.mk 0x07 0 0 0 0 0 raw q 0 0)
  | .getr slot comp => .host (HostCmd.mk 0x08 0 0 0 0 0 0 0 slot comp)
  | .getf slot comp => .host (HostCmd.mk 0x09 0 0 0 0 0 0 0 slot comp)
  | .geta slot => .host (HostCmd.mk 0x0A 0 0 0 0 0 0 0 slot 0)
  | .gett slot => .host (HostCmd.mk 0x0B 0 0 0 0 0 0 0 slot 0)
  | .pktCmd => packetWord 0 none
  | .pktExe => packetWord 1 none
  | .pktCtlProdid => packetWord 2 (some cfg.ridProductIdResponse)
  | .pktCtlCmdresp => packetWord 2 (some cfg.ridCommandResponse)
  | .pktCtlFrsresp => packetWord 2 (some cfg.ridFrsReadResponse)
  | .pktCtlOther => packetWord 2 none
  | .pktRptBasets => packetWord 3 (some cfg.ridBaseTimestamp)
  | .pktRptOther => packetWord 3 none
  | .pktWake => packetWord 4 none
  | .pktGyro => packetWord 5 none
  | .pktBadchan => packetWord 6 none
  | .rptAcc => .report cfg.ridAcc
  | .rptLin => .report cfg.ridLin
  | .rptGyr => .report cfg.ridGyr
  | .rptMag => .report cfg.ridMag
  | .rptRv => .report cfg.ridRv
  | .rptRvv1 => .report cfg.ridRvv1
  | .rptRvv2 => .report cfg.ridRvv2
  | .rptRvv3 => .report cfg.ridRvv3
  | .rptStep => .report cfg.ridStep
  | .rptStab => .report cfg.ridStab
  | .rptAct => .report cfg.ridAct
  | .rptRawacc => .report cfg.ridRawacc
  | .rptRawgyr => .report cfg.ridRawgyr
  | .rptRawmag => .report cfg.ridRawmag
  | .rptOther => .report 0

/-! ### The opcode table's reading of the two packet maps -/

/-- A row of the opcode table: it selects a word `w` when `w & mask = pattern` and at least `needs` payload bytes are
held (R96). -/
structure TableRow where
  mask : Nat
  pattern : Nat
  needs : Nat
deriving DecidableEq, Repr

/-- The row selects the word (R96). -/
def TableRow.selects (r : TableRow) (w cnt : Nat) : Bool :=
  decide (w &&& r.mask = r.pattern) && decide (r.needs ≤ cnt)

/-- `(match & ~(0xFF << shift)) | (param << shift)`: the pattern of a parameterised row (R96). -/
def paramPattern (pattern shift : Nat) (param : Byte) : Nat := pattern ||| (param.toNat <<< shift)

/-- The packet rows in table order (R76, opcode_table.json). -/
def pktTable (cfg : Config) : List (PktRow × TableRow) :=
  [(.cmd, ⟨0x0000FF0000, 0x0000000000, 0⟩),
   (.exe, ⟨0x0000FF0000, 0x0000010000, 0⟩),
   (.ctlProdid, ⟨0xFF00FF0000, paramPattern 0x0000020000 32 cfg.ridProductIdResponse, 1⟩),
   (.ctlCmdresp, ⟨0xFF00FF0000, paramPattern 0x0000020000 32 cfg.ridCommandResponse, 1⟩),
   (.ctlFrsresp, ⟨0xFF00FF0000, paramPattern 0x0000020000 32 cfg.ridFrsReadResponse, 1⟩),
   (.ctlOther, ⟨0x0000FF0000, 0x0000020000, 0⟩),
   (.rptBasets, ⟨0xFF00FF0000, paramPattern 0x0000030000 32 cfg.ridBaseTimestamp, 1⟩),
   (.rptOther, ⟨0x0000FF0000, 0x0000030000, 0⟩),
   (.wake, ⟨0x0000FF0000, 0x0000040000, 0⟩),
   (.gyro, ⟨0x0000FF0000, 0x0000050000, 0⟩),
   (.badchan, ⟨0x0000000000, 0x0000000000, 0⟩)]

/-- The sensor-report rows in table order (R80, opcode_table.json). -/
def rptTable (cfg : Config) : List (RptRow × TableRow) :=
  [(.acc, ⟨0xFF, paramPattern 0 0 cfg.ridAcc, 13⟩),
   (.lin, ⟨0xFF, paramPattern 0 0 cfg.ridLin, 13⟩),
   (.gyr, ⟨0xFF, paramPattern 0 0 cfg.ridGyr, 13⟩),
   (.mag, ⟨0xFF, paramPattern 0 0 cfg.ridMag, 13⟩),
   (.rv, ⟨0xFF, paramPattern 0 0 cfg.ridRv, 13⟩),
   (.rvv1, ⟨0xFF, paramPattern 0 0 cfg.ridRvv1, 13⟩),
   (.rvv2, ⟨0xFF, paramPattern 0 0 cfg.ridRvv2, 13⟩),
   (.rvv3, ⟨0xFF, paramPattern 0 0 cfg.ridRvv3, 13⟩),
   (.step, ⟨0xFF, paramPattern 0 0 cfg.ridStep, 13⟩),
   (.stab, ⟨0xFF, paramPattern 0 0 cfg.ridStab, 13⟩),
   (.act, ⟨0xFF, paramPattern 0 0 cfg.ridAct, 13⟩),
   (.rawacc, ⟨0xFF, paramPattern 0 0 cfg.ridRawacc, 13⟩),
   (.rawgyr, ⟨0xFF, paramPattern 0 0 cfg.ridRawgyr, 13⟩),
   (.rawmag, ⟨0xFF, paramPattern 0 0 cfg.ridRawmag, 13⟩),
   (.other, ⟨0x00, 0x00, 13⟩)]

/-- The first row of a table that selects the word: "the lowest matching order wins" (R96). -/
def firstMatch {α : Type} (rows : List (α × TableRow)) (w cnt : Nat) : Option α :=
  (rows.find? (fun r => r.2.selects w cnt)).map Prod.fst

/-- The instruction the decoder reads from an opcode-table word, under the suggested configuration. A 40-bit word is the
decode word of a held packet whose first payload byte exists. An 8-bit word is an operation code with every operand
port 0 or, where it names no operation, an embedded report ID: the table has both as 8-bit rows and the word cannot
tell them apart, so the rows are taken in the table's order (log 8). -/
def decodeTableWord (nbits w : Nat) : Option Instr :=
  if 2 ^ nbits ≤ w then none
  else if nbits = 40 then
    (decode Config.suggested (.packet (BitVec.ofNat 40 w) 19)).toOption
  else if nbits = 8 then
    match decode Config.suggested (.host (HostCmd.mk (BitVec.ofNat 8 w) 0 0 0 0 0 0 0 0 0)) with
    | .ok i => some i
    | .error _ => (decode Config.suggested (.report (BitVec.ofNat 8 w))).toOption
  else none

end Sys2Proof
end

