-- ==== Sys2Proof/Machine/State.lean ====
section
/-! DEFINITION. The state of the block (10_state.md R20 to R43), of its ports (R47) and of the transport's answers still to
come (00_scope.md R4), as plain data; the stops; the state after reset (R45, 70_reset_and_hazards.md R250, R251). -/

namespace Sys2Proof.Machine

open Sys2Proof

/-- The receive sequencer `RXFSM` (R27; its five values as names, log 14). -/
inductive RxFsm where
  | idle | awaitingHeader | awaitingPayload | complete | timedOut
deriving DecidableEq, Repr

/-- The causes of 60_exceptions.md R223 (the twelve used codes as names, log 14). -/
inductive Cause where
  | cNone | tfaultHdr | tfaultPay | txNack | zeroLen | shortLen | badChan | noDecoder | badRid | malformed
  | noPacket | refused
deriving DecidableEq, Repr

/-- The packet classes `LASTCLS` records (R31; the seven codes as names, log 14). -/
inductive PktClass where
  | none | sensor | gyro | prodid | cmdresp | frsresp | ignored
deriving DecidableEq, Repr

/-- The result codes on port `RES` (60_exceptions.md R222). -/
inductive Res where
  | none | ok | fault | refused
deriving DecidableEq, Repr

/-- A slot with three components, an accuracy and a timestamp (R34, R37). -/
structure VecSlot where
  x : Half
  y : Half
  z : Half
  accy : BitVec 2
  ts : Word
deriving DecidableEq, Repr

/-- Slot `QUAT` (R35). -/
structure QuatSlot where
  i : Half
  j : Half
  k : Half
  real : Half
  radacc : Half
  accy : BitVec 2
  ts : Word
deriving DecidableEq, Repr

/-- Slot `FGYR` (R36). -/
structure FgyrSlot where
  x : Half
  y : Half
  z : Half
deriving DecidableEq, Repr

/-- A scalar slot: `STEP`, `STAB`, `ACT` (R38, R39, R40). -/
structure ScalarSlot where
  val : Half
  accy : BitVec 2
  ts : Word
deriving DecidableEq, Repr

/-- `BUF` as the bytes written since power-on, by rising address. An address that is not listed has not been written:
its byte is the free value `Config.powerOnByte` (R45, log 5). -/
abbrev Memory := List Host.Cell

/-- The one canonical form of a memory: addresses strictly rising, so that a byte has one entry at most. -/
abbrev Memory.wf (m : Memory) : Prop := m.Pairwise (fun a b => a.1 < b.1)

/-- The transport's answer to a `T_READ` (20_memory.md R58). -/
inductive RdAnswer where
  | bytes (bs : List Byte)
  | fault
deriving DecidableEq, Repr

/-- An entry of `TRACE` (R43): `W(bytes, ok|nack)` or `R(k, bytes|fault)`. -/
inductive TraceEntry where
  | write (bs : List Byte) (ans : WrAnswer)
  | read (k : Nat) (ans : RdAnswer)
deriving DecidableEq, Repr

/-- What reaches the block from the host's side (R47): the power-on reset pin, or a host operation. -/
inductive HostInput where
  | powerOn
  | op (c : HostCmd)
deriving DecidableEq, Repr

/-- The state of a step. The fields up to `buf` are R20's list; the others are the ports, the transport's side and the
instance's parameters, which the step of Host.Core needs beside them (log 2). -/
structure State where
  /-- `SEQ[0..5]` (R21) -/
  seq : Vector Byte 6
  /-- `RXHDR` (R22) -/
  rxhdr : Header
  /-- `RXCHAN` (R23) -/
  rxchan : Byte
  /-- `RXSEQ` (R24) -/
  rxseq : Byte
  /-- `RXLEN` (R25) -/
  rxlen : BitVec 15
  /-- `RXCNT` (R26) -/
  rxcnt : BitVec 9
  /-- `RXFSM` (R27) -/
  rxfsm : RxFsm
  /-- `RXVALID` (R28) -/
  rxvalid : Bool
  /-- `TRUNC` (R29) -/
  trunc : Bool
  /-- `CAUSE` (R30) -/
  cause : Cause
  /-- `LASTCLS` (R31) -/
  lastCls : PktClass
  /-- `LASTRID` (R32) -/
  lastRid : Byte
  /-- slot `ACC` (R34) -/
  acc : VecSlot
  /-- slot `LIN` (R34) -/
  lin : VecSlot
  /-- slot `GYR` (R34) -/
  gyr : VecSlot
  /-- slot `MAG` (R34) -/
  mag : VecSlot
  /-- slot `QUAT` (R35) -/
  quat : QuatSlot
  /-- slot `FGYR` (R36) -/
  fgyr : FgyrSlot
  /-- slot `RAWACC` (R37) -/
  rawacc : VecSlot
  /-- slot `RAWGYR` (R37) -/
  rawgyr : VecSlot
  /-- slot `RAWMAG` (R37) -/
  rawmag : VecSlot
  /-- slot `STEP` (R38) -/
  stepCnt : ScalarSlot
  /-- slot `STAB` (R39) -/
  stab : ScalarSlot
  /-- slot `ACT` (R40) -/
  act : ScalarSlot
  /-- `BUF` (R41) -/
  buf : Memory
  /-- port `RES`, the result code of the last operation (R47, 60_exceptions.md R222) -/
  res : Res
  /-- port `RDATA`, the result data of the last operation (R47, 30_encoding.md R91) -/
  rdata : Word
  /-- what the host's side will present, the next first (R4, R47) -/
  inputs : List HostInput
  /-- the items the transport's read stream will bring, the next first; past its end the items are free (R50, R58) -/
  rdStream : List StreamItem
  /-- the transport's answers to `T_WRITE`, the next first; past its end the answers are free (R59) -/
  wrAnswers : List WrAnswer
  /-- the model's own: how many free transport answers have been drawn -/
  draws : Nat
  /-- `TRACE`, in issue order (R43) -/
  trace : List TraceEntry
  /-- the instance's parameters, constant in a run (R42, R253, log 2) -/
  cfg : Config
  /-- the model's own: how many power-on resets there have been, which numbers the unspecified contents (R251, log 5, log 6) -/
  epoch : Nat
deriving DecidableEq, Repr

/-- The block has no fault of its own ("No condition in this block transfers control anywhere", 60_exceptions.md R220):
a transport fault is a result. The one stop the spec gives is outside its step relation. -/
inductive Fault where
  /-- Raised by `step` (never by a meaning): a host operation presented while `RXFSM` says that a `RECV` is in
  progress; `stuck`, "outside the model: the step relation has one operation at a time" (U17, 70_reset_and_hazards.md
  R262, log 9). No step reaches such a state. Safe. -/
  | operationInProgress
deriving DecidableEq, Repr

/-- Why a step gives no meaning. -/
inductive Refusal where
  /-- Raised by an arm of `exec` whose instruction has no meaning yet; no arm does. Safe. -/
  | notModelled (mnemonic : String)
  /-- Raised by `step`: the parameters break a constraint of 00_scope.md R7, R8 or R9: "A configuration that breaks a
  constraint is refused by the model, not given a meaning" (R9, U16, log 11). Safe. -/
  | badConfig
deriving DecidableEq, Repr

/-- What a meaning answers. -/
abbrev Out := Host.Outcome State Fault Refusal

/-- The unspecified contents of a three-component slot after power-on (R45, U8, log 6). -/
def VecSlot.powerOn (epoch i : Nat) : VecSlot :=
  { x := Config.powerOnHalf epoch (8 * i)
    y := Config.powerOnHalf epoch (8 * i + 1)
    z := Config.powerOnHalf epoch (8 * i + 2)
    accy := Config.powerOnAccy epoch i
    ts := Config.powerOnTs epoch i }

/-- The unspecified contents of slot `QUAT` after power-on (R45, U8, log 6). -/
def QuatSlot.powerOn (epoch i : Nat) : QuatSlot :=
  { i := Config.powerOnHalf epoch (8 * i)
    j := Config.powerOnHalf epoch (8 * i + 1)
    k := Config.powerOnHalf epoch (8 * i + 2)
    real := Config.powerOnHalf epoch (8 * i + 3)
    radacc := Config.powerOnHalf epoch (8 * i + 4)
    accy := Config.powerOnAccy epoch i
    ts := Config.powerOnTs epoch i }

/-- The unspecified contents of slot `FGYR` after power-on (R45, U8, log 6). -/
def FgyrSlot.powerOn (epoch i : Nat) : FgyrSlot :=
  { x := Config.powerOnHalf epoch (8 * i)
    y := Config.powerOnHalf epoch (8 * i + 1)
    z := Config.powerOnHalf epoch (8 * i + 2) }

/-- The unspecified contents of a scalar slot after power-on (R45, U8, log 6). -/
def ScalarSlot.powerOn (epoch i : Nat) : ScalarSlot :=
  { val := Config.powerOnHalf epoch (8 * i)
    accy := Config.powerOnAccy epoch i
    ts := Config.powerOnTs epoch i }

/-- The machine right after the power-on reset number `epoch`, with what is no state of the block given: its
parameters, the host's inputs, the transport's answers, the trace (R45, R250, R251). Slot `n` of R90 is numbered `n`. -/
def State.afterPowerOn (cfg : Config) (epoch : Nat) (inputs : List HostInput) (rdStream : List StreamItem)
    (wrAnswers : List WrAnswer) (draws : Nat) (trace : List TraceEntry) : State :=
  { seq := #v[0, 0, 0, 0, 0, 0]
    rxhdr := ⟨0, 0, 0, 0⟩
    rxchan := 0
    rxseq := 0
    rxlen := 0
    rxcnt := 0
    rxfsm := .idle
    rxvalid := false
    trunc := false
    cause := .cNone
    lastCls := .none
    lastRid := 0
    acc := VecSlot.powerOn epoch 0
    lin := VecSlot.powerOn epoch 1
    gyr := VecSlot.powerOn epoch 2
    mag := VecSlot.powerOn epoch 3
    quat := QuatSlot.powerOn epoch 4
    fgyr := FgyrSlot.powerOn epoch 5
    rawacc := VecSlot.powerOn epoch 6
    rawgyr := VecSlot.powerOn epoch 7
    rawmag := VecSlot.powerOn epoch 8
    stepCnt := ScalarSlot.powerOn epoch 9
    stab := ScalarSlot.powerOn epoch 10
    act := ScalarSlot.powerOn epoch 11
    buf := []
    res := .none
    rdata := 0
    inputs := inputs
    rdStream := rdStream
    wrAnswers := wrAnswers
    draws := draws
    trace := trace
    cfg := cfg
    epoch := epoch }

/-- The machine right after reset: power-on, nothing presented by the host, no transport answer scripted, the suggested
parameters (R45, R250; log 1). -/
def State.reset : State := State.afterPowerOn Config.suggested 0 [] [] [] 0 []

end Sys2Proof.Machine
end

