-- ==== Sys2Proof/Machine/Ops.lean ====
section
/-! DEFINITION. The named operations over memory and registers: byte access to `BUF` (00_scope.md R12), the sequence
counters (10_state.md R21), the transport requests (20_memory.md R58, R59), and how an operation ends (60_exceptions.md
R221, R233, R234): this block's one way of "taking an exception" is `State.raise`, and there is no return from one. -/

namespace Sys2Proof.Machine

open Sys2Proof

/-! ### `BUF` -/

/-- The byte written at `x` since power-on, if any. -/
def Memory.get? : Memory → Nat → Option Byte
  | [], _ => none
  | c :: m, x => if c.1 = x then some c.2 else Memory.get? m x

/-- Write byte `v` at `x`, keeping the addresses strictly rising. -/
def Memory.set : Memory → Nat → Byte → Memory
  | [], x, v => [(x, v)]
  | c :: m, x, v =>
    if x < c.1 then (x, v) :: c :: m
    else if x = c.1 then (x, v) :: m
    else c :: Memory.set m x v

/-- `BUF[a]`: the byte last written, or the unspecified byte the location has held since power-on (R45, R263). -/
def State.readByte (s : State) (a : Nat) : Byte :=
  (Memory.get? s.buf a).getD (Config.powerOnByte s.epoch a)

/-- `BUF[a] <- v` (R12, `MemWrite` with `n = 1`). -/
def State.writeByte (a : Nat) (v : Byte) (s : State) : State :=
  { s with buf := Memory.set s.buf a v }

/-- `MemRead(addr, n)`: the little-endian unsigned integer of `n` buffer bytes (R12). -/
def State.memRead (s : State) (addr : Nat) : Nat → Nat
  | 0 => 0
  | n + 1 => State.memRead s addr n + ((s.readByte (addr + n)).toNat <<< (8 * n))

/-- `LE16(addr)` (R12, R53). -/
def State.le16 (s : State) (addr : Nat) : Half := BitVec.ofNat 16 (s.memRead addr 2)

/-- `LE32(addr)` (R12, R53). -/
def State.le32 (s : State) (addr : Nat) : Word := BitVec.ofNat 32 (s.memRead addr 4)

/-- The payload `BUF[0..n-1]` (R51). -/
def State.payload (s : State) (n : Nat) : List Byte := (List.range n).map s.readByte

/-- Store the bytes of a chunk at `i`, `i + 1`, ...; a byte at or beyond `MAX_PAYLOAD` is discarded (41_framer_rx.md
R117). -/
def State.storeChunk : Nat → List Byte → State → State
  | _, [], s => s
  | i, b :: bs, s =>
    State.storeChunk (i + 1) bs (if i < s.cfg.maxPayload then s.writeByte i b else s)

/-! ### Sequence counters -/

/-- `SEQ[c]` (R21). There are six counters; no operation reads another. -/
def State.seqRead (s : State) (c : Nat) : Byte := s.seq[c]?.getD 0

/-- `SEQ[c] <- v` (R21). -/
def State.seqWrite (c : Nat) (v : Byte) (s : State) : State :=
  { s with seq := s.seq.setIfInBounds c v }

/-! ### How an operation begins and ends -/

/-- `CAUSE <- C_NONE`, the first statement of every operation (R30). -/
def State.begin (s : State) : State := { s with cause := .cNone }

/-- `return OK with RDATA = d` (R91). -/
def State.ret (d : Word) (s : State) : State := { s with res := .ok, rdata := d }

/-- `raise <Cause>(res)`: the cause is recorded, the operation ends with the result and `RDATA = 0`, and every earlier
write stays (60_exceptions.md R221). Nothing is saved, no mode changes, control goes nowhere (R233). -/
def State.raise (c : Cause) (r : Res) (s : State) : State := { s with cause := c, res := r, rdata := 0 }

/-- A refused operation: nothing but `CAUSE` and the result (60_exceptions.md R228). -/
def State.refuse (s : State) : State := s.begin.raise .refused .refused

/-- `RXVALID <- 0; TRUNC <- 0; RXCNT <- 0` (40_framer_tx.md R105, 41_framer_rx.md R111). -/
def State.dropPacket (s : State) : State := { s with rxvalid := false, trunc := false, rxcnt := 0 }

/-! ### Power-on -/

/-- The power-on reset through port `RST_N`: the registers take their reset values, `BUF` and the Value Store hold
unspecified contents again, and the transport's pending bytes stay (R250, R251). -/
def State.powerOn (rest : List HostInput) (s : State) : State :=
  State.afterPowerOn s.cfg (s.epoch + 1) rest s.rdStream s.wrAnswers s.draws s.trace

/-! ### Transport requests -/

/-- The next item of the read stream and what is left of it; past the scripted items the stream is free. -/
def nextItem : List StreamItem → Nat → StreamItem × List StreamItem × Nat
  | [], d => (Config.transportItem d, [], d + 1)
  | x :: xs, d => (x, xs, d)

/-- Take `k` bytes from the read stream: all of them, or `none` at the first fault, which is then consumed
with the bytes before it (log 4). -/
def takeBytes : Nat → List StreamItem → Nat → Option (List Byte) × List StreamItem × Nat
  | 0, xs, d => (some [], xs, d)
  | k + 1, xs, d =>
    match nextItem xs d with
    | (.fault, xs', d') => (none, xs', d')
    | (.byte b, xs', d') =>
      match takeBytes k xs' d' with
      | (none, xs'', d'') => (none, xs'', d'')
      | (some bs, xs'', d'') => (some (b :: bs), xs'', d'')

/-- The answer to a `T_READ` that took `r` from the stream (R58). -/
def RdAnswer.ofOption : Option (List Byte) → RdAnswer
  | some bs => .bytes bs
  | none => .fault

/-- `T_READ(k)`: the answer, and the state with the stream advanced and the request in `TRACE` (R58, R43). -/
def State.tRead (k : Nat) (s : State) : RdAnswer × State :=
  let r := takeBytes k s.rdStream s.draws
  (RdAnswer.ofOption r.1,
   { s with rdStream := r.2.1, draws := r.2.2, trace := s.trace ++ [.read k (RdAnswer.ofOption r.1)] })

/-- The next answer to a `T_WRITE` and what is left; past the scripted answers they are free. -/
def nextWrite : List WrAnswer → Nat → WrAnswer × List WrAnswer × Nat
  | [], d => (Config.transportWrite d, [], d + 1)
  | x :: xs, d => (x, xs, d)

/-- `T_WRITE(bs)`: the answer, and the state with the request in `TRACE` whatever the answer (R59, R43). -/
def State.tWrite (bs : List Byte) (s : State) : WrAnswer × State :=
  let r := nextWrite s.wrAnswers s.draws
  (r.1, { s with wrAnswers := r.2.1, draws := r.2.2, trace := s.trace ++ [.write bs r.1] })

end Sys2Proof.Machine
end

