-- ==== Sys2Proof/Machine/Flags.lean ====
section
/-! DEFINITION. The flags and codes: `TRUNC` and `RXCNT` of a received packet (41_framer_rx.md R118), and the numeric codes
of the enumerated registers that `RDSR` shows (10_state.md R27, R31, 60_exceptions.md R222, R223). -/

namespace Sys2Proof.Machine

open Sys2Proof

/-- `TRUNC`: the declared payload length exceeds the buffer (R29, R118). -/
def truncFlag (cfg : Config) (n : Nat) : Bool := decide (cfg.maxPayload < n)

/-- `RXCNT = min(n, MAX_PAYLOAD)` (R26, R118). -/
def storedCount (cfg : Config) (n : Nat) : BitVec 9 := BitVec.ofNat 9 (min n cfg.maxPayload)

/-- The code of `RXFSM` (R27). -/
def RxFsm.code : RxFsm → BitVec 3
  | .idle => 0
  | .awaitingHeader => 1
  | .awaitingPayload => 2
  | .complete => 3
  | .timedOut => 4

/-- A `RECV` is in progress: the two states that exist only inside one (R27). -/
def RxFsm.inProgress : RxFsm → Bool
  | .awaitingHeader => true
  | .awaitingPayload => true
  | .idle => false
  | .complete => false
  | .timedOut => false

/-- The code of `CAUSE` (R223). -/
def Cause.code : Cause → BitVec 4
  | .cNone => 0
  | .tfaultHdr => 1
  | .tfaultPay => 2
  | .txNack => 3
  | .zeroLen => 4
  | .shortLen => 5
  | .badChan => 6
  | .noDecoder => 7
  | .badRid => 8
  | .malformed => 9
  | .noPacket => 10
  | .refused => 11

/-- The code of `LASTCLS` (R31). -/
def PktClass.code : PktClass → BitVec 3
  | .none => 0
  | .sensor => 1
  | .gyro => 2
  | .prodid => 3
  | .cmdresp => 4
  | .frsresp => 5
  | .ignored => 6

/-- The code on port `RES` (R222). -/
def Res.code : Res → BitVec 2
  | .none => 0
  | .ok => 1
  | .fault => 2
  | .refused => 3

/-- `RXSTAT`: bit 0 `RXVALID`, bit 1 `TRUNC` (R46). -/
def State.rxstat (s : State) : Word :=
  (BitVec.ofBool s.trunc ++ BitVec.ofBool s.rxvalid).setWidth 32

end Sys2Proof.Machine
end

