-- ==== Sys2Proof/Machine/Operands.lean ====
section
/-! DEFINITION. The operand forms: the selects of `RDSR` (10_state.md R46), the slot and component selects (30_encoding.md
R90) with their Q-points (44_qformat.md R189), and the fields of a sensor report (30_encoding.md R77, R78, R79) and of a
Gyro-channel payload (R81). -/

namespace Sys2Proof.Machine

open Sys2Proof

/-- The register a select of `RDSR` names, zero-extended to 32 bits; `none` for any other select (R46). -/
def State.statusReg (s : State) (sel : Byte) : Option Word :=
  match sel.toNat with
  | 0x00 => some ((s.seqRead 0).setWidth 32)
  | 0x01 => some ((s.seqRead 1).setWidth 32)
  | 0x02 => some ((s.seqRead 2).setWidth 32)
  | 0x03 => some ((s.seqRead 3).setWidth 32)
  | 0x04 => some ((s.seqRead 4).setWidth 32)
  | 0x05 => some ((s.seqRead 5).setWidth 32)
  | 0x10 => some s.rxstat
  | 0x11 => some (s.rxchan.setWidth 32)
  | 0x12 => some (s.rxseq.setWidth 32)
  | 0x13 => some (s.rxlen.setWidth 32)
  | 0x14 => some (s.rxcnt.setWidth 32)
  | 0x15 => some (s.cause.code.setWidth 32)
  | 0x16 => some (s.lastRid.setWidth 32)
  | 0x17 => some (s.lastCls.code.setWidth 32)
  | 0x18 => some (s.rxfsm.code.setWidth 32)
  | 0x19 => some s.rxhdr.word
  | _ => none

/-- Component `comp` of a three-component slot. -/
def VecSlot.comp (v : VecSlot) (comp : Nat) : Option Half :=
  match comp with
  | 0 => some v.x
  | 1 => some v.y
  | 2 => some v.z
  | _ => none

/-- Component `comp` of `QUAT`. -/
def QuatSlot.comp (v : QuatSlot) (comp : Nat) : Option Half :=
  match comp with
  | 0 => some v.i
  | 1 => some v.j
  | 2 => some v.k
  | 3 => some v.real
  | 4 => some v.radacc
  | _ => none

/-- Component `comp` of `FGYR`. -/
def FgyrSlot.comp (v : FgyrSlot) (comp : Nat) : Option Half :=
  match comp with
  | 0 => some v.x
  | 1 => some v.y
  | 2 => some v.z
  | _ => none

/-- Component `comp` of a scalar slot. -/
def ScalarSlot.comp (v : ScalarSlot) (comp : Nat) : Option Half :=
  match comp with
  | 0 => some v.val
  | _ => none

/-- `SLOT.COMP` by the select codes of R90; `none` where R90 has no cell. -/
def State.cell (s : State) (slot comp : Byte) : Option Half :=
  match slot.toNat with
  | 0 => s.acc.comp comp.toNat
  | 1 => s.lin.comp comp.toNat
  | 2 => s.gyr.comp comp.toNat
  | 3 => s.mag.comp comp.toNat
  | 4 => s.quat.comp comp.toNat
  | 5 => s.fgyr.comp comp.toNat
  | 6 => s.rawacc.comp comp.toNat
  | 7 => s.rawgyr.comp comp.toNat
  | 8 => s.rawmag.comp comp.toNat
  | 9 => s.stepCnt.comp comp.toNat
  | 10 => s.stab.comp comp.toNat
  | 11 => s.act.comp comp.toNat
  | _ => none

/-- The Q-point of a cell by the select codes, `none` for a slot without one (R189). -/
def qPoint (cfg : Config) (slot comp : Byte) : Option Byte :=
  match slot.toNat with
  | 0 => some cfg.qpAcc
  | 1 => some cfg.qpLin
  | 2 => some cfg.qpGyr
  | 3 => some cfg.qpMag
  | 4 => if comp.toNat = 4 then some cfg.qpRadacc else some cfg.qpRot
  | 5 => some cfg.qpFgyr
  | _ => none

/-- `SLOT.ACCY`; `none` for `FGYR` and for a slot code above 11 (R190). -/
def State.slotAccy (s : State) (slot : Byte) : Option (BitVec 2) :=
  match slot.toNat with
  | 0 => some s.acc.accy
  | 1 => some s.lin.accy
  | 2 => some s.gyr.accy
  | 3 => some s.mag.accy
  | 4 => some s.quat.accy
  | 6 => some s.rawacc.accy
  | 7 => some s.rawgyr.accy
  | 8 => some s.rawmag.accy
  | 9 => some s.stepCnt.accy
  | 10 => some s.stab.accy
  | 11 => some s.act.accy
  | _ => none

/-- `SLOT.TS`; `none` for `FGYR` and for a slot code above 11 (R191). -/
def State.slotTs (s : State) (slot : Byte) : Option Word :=
  match slot.toNat with
  | 0 => some s.acc.ts
  | 1 => some s.lin.ts
  | 2 => some s.gyr.ts
  | 3 => some s.mag.ts
  | 4 => some s.quat.ts
  | 6 => some s.rawacc.ts
  | 7 => some s.rawgyr.ts
  | 8 => some s.rawmag.ts
  | 9 => some s.stepCnt.ts
  | 10 => some s.stab.ts
  | 11 => some s.act.ts
  | _ => none

/-! ### The held packet -/

/-- The first payload byte of the held packet, if its payload has one (R76). -/
def State.firstByte (s : State) : Option Byte := if 1 ≤ s.rxcnt.toNat then some (s.readByte 0) else none

/-- The decode word `DW` of the held packet (R76), bits 39:32 being `BUF[0]`. -/
def State.decodeWord (s : State) : BitVec 40 := s.readByte 0 ++ s.rxhdr.word

/-- `NW = min(5, (RXCNT - 9) div 2)`: the data words present (R78). -/
def State.wordsPresent (s : State) : Nat := min 5 ((s.rxcnt.toNat - 9) / 2)

/-- Data word `Wk`: `LE16(9 + 2*(k-1))` if present, else `0x0000` (R78, 43_report_decode.md R152; log 18). -/
def State.dataWord (s : State) (k : Nat) : Half :=
  if k ≤ s.wordsPresent then s.le16 (9 + 2 * (k - 1)) else 0

/-- The accuracy `BUF[7] & 0x03` (R79). -/
def State.reportAccy (s : State) : BitVec 2 := (s.readByte 7 &&& 0x03).setWidth 2

/-- `TSTAMP = LE32(1)` (R78). -/
def State.reportTs (s : State) : Word := s.le32 1

/-- `scal((k, part))` (43_report_decode.md R171). -/
def State.scal (s : State) (p : ScalSel) : Half :=
  match p.part with
  | .full => s.dataWord p.k
  | .lo => s.dataWord p.k &&& 0x00FF
  | .hi => s.dataWord p.k >>> 8

/-- What a three-component report writes into its slot (R153, R154). -/
def State.vecReport (s : State) : VecSlot :=
  { x := s.dataWord 1
    y := s.dataWord 2
    z := s.dataWord 3
    accy := s.reportAccy
    ts := s.reportTs }

/-- What a rotation-vector report writes into `QUAT` (R153, R158). -/
def State.quatReport (s : State) : QuatSlot :=
  { i := s.dataWord 1
    j := s.dataWord 2
    k := s.dataWord 3
    real := s.dataWord 4
    radacc := s.dataWord 5
    accy := s.reportAccy
    ts := s.reportTs }

/-- What a scalar report writes into its slot (R153, R162). -/
def State.scalarReport (s : State) (p : ScalSel) : ScalarSlot :=
  { val := s.scal p
    accy := s.reportAccy
    ts := s.reportTs }

end Sys2Proof.Machine
end

