-- ==== Sys2Proof/Machine/ReportDecode.lean ====
section
/-! DEFINITION. The sensor-report types (43_report_decode.md R150 to R168) and the Gyro-channel decoder (R169, R170). A
report type's meaning is the whole `PARSE` of a held packet that the demux hands to `DecodeSensor` and that the routing map
gives to that type (log 12). -/

namespace Sys2Proof.Machine

open Sys2Proof

/-- The sensor packet is too short for two data words (R151). -/
def State.reportShort (s : State) : Bool := decide (s.rxcnt.toNat < 13)

/-- What `PARSE` has done when it enters `DecodeSensor` (42_demux.md R130, R140). -/
def State.enterSensor (s : State) : State := { s.begin with lastCls := .sensor }

/-- What `PARSE` has done when it enters `DecodeGyro` (R130, R143). -/
def State.enterGyro (s : State) : State := { s.begin with lastCls := .gyro }

/-- A decoder that returned report ID `rid`: `LASTRID <- rid; return OK with RDATA = rid` (R130). -/
def State.decoded (rid : Byte) (s : State) : State := ({ s with lastRid := rid }).ret (rid.setWidth 32)

/-- A decoder that returned 0 with cause `c`: `LASTRID <- 0; return NONE` (R130). -/
def State.notDecoded (c : Cause) (s : State) : State := ({ s with lastRid := 0 }).raise c .none

/-- The `PARSE` of a sensor packet up to the routing: a short packet is malformed before any field is read (R150, R151,
R231); any other goes to `route`. -/
def State.sensor (route : State → State) (s : State) : State :=
  if s.reportShort then s.enterSensor.notDecoded .malformed else route s.enterSensor

/-- RPT.ACC (R154). -/
def execRptAcc (s : State) : Out :=
  .next (s.sensor fun t => ({ t with acc := t.vecReport }).decoded t.cfg.ridAcc)

/-- RPT.LIN (R155). -/
def execRptLin (s : State) : Out :=
  .next (s.sensor fun t => ({ t with lin := t.vecReport }).decoded t.cfg.ridLin)

/-- RPT.GYR (R156). -/
def execRptGyr (s : State) : Out :=
  .next (s.sensor fun t => ({ t with gyr := t.vecReport }).decoded t.cfg.ridGyr)

/-- RPT.MAG (R157). -/
def execRptMag (s : State) : Out :=
  .next (s.sensor fun t => ({ t with mag := t.vecReport }).decoded t.cfg.ridMag)

/-- RPT.RV (R158). -/
def execRptRv (s : State) : Out :=
  .next (s.sensor fun t => ({ t with quat := t.quatReport }).decoded t.cfg.ridRv)

/-- RPT.RVV1 (R159). -/
def execRptRvv1 (s : State) : Out :=
  .next (s.sensor fun t => ({ t with quat := t.quatReport }).decoded t.cfg.ridRvv1)

/-- RPT.RVV2 (R160). -/
def execRptRvv2 (s : State) : Out :=
  .next (s.sensor fun t => ({ t with quat := t.quatReport }).decoded t.cfg.ridRvv2)

/-- RPT.RVV3 (R161). -/
def execRptRvv3 (s : State) : Out :=
  .next (s.sensor fun t => ({ t with quat := t.quatReport }).decoded t.cfg.ridRvv3)

/-- RPT.STEP (R162). -/
def execRptStep (s : State) : Out :=
  .next (s.sensor fun t => ({ t with stepCnt := t.scalarReport t.cfg.scalStep }).decoded t.cfg.ridStep)

/-- RPT.STAB (R163). -/
def execRptStab (s : State) : Out :=
  .next (s.sensor fun t => ({ t with stab := t.scalarReport t.cfg.scalStab }).decoded t.cfg.ridStab)

/-- RPT.ACT (R164). -/
def execRptAct (s : State) : Out :=
  .next (s.sensor fun t => ({ t with act := t.scalarReport t.cfg.scalAct }).decoded t.cfg.ridAct)

/-- RPT.RAWACC (R165). -/
def execRptRawacc (s : State) : Out :=
  .next (s.sensor fun t => ({ t with rawacc := t.vecReport }).decoded t.cfg.ridRawacc)

/-- RPT.RAWGYR (R166). -/
def execRptRawgyr (s : State) : Out :=
  .next (s.sensor fun t => ({ t with rawgyr := t.vecReport }).decoded t.cfg.ridRawgyr)

/-- RPT.RAWMAG (R167). -/
def execRptRawmag (s : State) : Out :=
  .next (s.sensor fun t => ({ t with rawmag := t.vecReport }).decoded t.cfg.ridRawmag)

/-- RPT.OTHER: no slot changes (R168). -/
def execRptOther (s : State) : Out := .next (s.sensor fun t => t.notDecoded .badRid)

/-- What a Gyro-channel packet leaves in `QUAT`: `RADACC`, `ACCY` and `TS` keep their values (R169). -/
def State.gyroQuat (s : State) : QuatSlot :=
  { s.quat with i := s.le16 0, j := s.le16 2, k := s.le16 4, real := s.le16 6 }

/-- What a Gyro-channel packet writes into `FGYR` (R169). -/
def State.gyroFgyr (s : State) : FgyrSlot := { x := s.le16 8, y := s.le16 10, z := s.le16 12 }

/-- `DecodeGyro()` and the end of `PARSE` after it (R169, R170). -/
def State.gyroPacket (s : State) : State :=
  if s.rxcnt.toNat < 14 then s.enterGyro.notDecoded .malformed
  else ({ s.enterGyro with quat := s.gyroQuat, fgyr := s.gyroFgyr }).decoded s.cfg.ridGirv

end Sys2Proof.Machine
end

