-- ==== Sys2Proof/Machine/Demux.lean ====
section
/-! DEFINITION. The channel demultiplexer (42_demux.md): the eleven packet classes and `PARSE`. A class's meaning is the
whole `PARSE` of a held packet that the class map gives to that class (log 12). -/

namespace Sys2Proof.Machine

open Sys2Proof

/-- `ignore(c)` (R130). -/
def State.ignore (c : Cause) (s : State) : State :=
  ({ s.begin with lastCls := .ignored, lastRid := 0 }).raise c .none

/-- `route(cls, b)` (R130). -/
def State.route (cls : PktClass) (b : Byte) (s : State) : State :=
  ({ s.begin with lastCls := cls, lastRid := b }).ret (b.setWidth 32)

/-- PKT.CMD (R132). -/
def execPktCmd (s : State) : Out := .next (s.ignore .noDecoder)

/-- PKT.EXE (R133). -/
def execPktExe (s : State) : Out := .next (s.ignore .noDecoder)

/-- PKT.CTL.PRODID (R136). -/
def execPktCtlProdid (s : State) : Out := .next (s.route .prodid s.cfg.ridProductIdResponse)

/-- PKT.CTL.CMDRESP (R137). -/
def execPktCtlCmdresp (s : State) : Out := .next (s.route .cmdresp s.cfg.ridCommandResponse)

/-- PKT.CTL.FRSRESP (R138; log 21). -/
def execPktCtlFrsresp (s : State) : Out := .next (s.route .frsresp s.cfg.ridFrsReadResponse)

/-- The cause of a packet that falls to the default row of channel 2 or 3: an empty payload is malformed, any other
first byte unknown (R135, R139, R141, R231). -/
def State.defaultCause (s : State) : Cause := if s.rxcnt.toNat < 1 then .malformed else .badRid

/-- PKT.CTL.OTHER (R135, R139). -/
def execPktCtlOther (s : State) : Out := .next (s.ignore s.defaultCause)

/-- PKT.RPT.BASETS: the sensor-report decoder, by the routing map (R140, 43_report_decode.md R150). -/
def execPktRptBasets (s : State) : Out :=
  match decodeReport s.cfg (s.readByte 5) with
  | .acc => execRptAcc s
  | .lin => execRptLin s
  | .gyr => execRptGyr s
  | .mag => execRptMag s
  | .rv => execRptRv s
  | .rvv1 => execRptRvv1 s
  | .rvv2 => execRptRvv2 s
  | .rvv3 => execRptRvv3 s
  | .step => execRptStep s
  | .stab => execRptStab s
  | .act => execRptAct s
  | .rawacc => execRptRawacc s
  | .rawgyr => execRptRawgyr s
  | .rawmag => execRptRawmag s
  | .other => execRptOther s

/-- PKT.RPT.OTHER (R141). -/
def execPktRptOther (s : State) : Out := .next (s.ignore s.defaultCause)

/-- PKT.WAKE (R142). -/
def execPktWake (s : State) : Out := .next (s.ignore .noDecoder)

/-- PKT.GYRO (R143, 43_report_decode.md R169). -/
def execPktGyro (s : State) : Out := .next s.gyroPacket

/-- PKT.BADCHAN (R144). -/
def execPktBadchan (s : State) : Out := .next (s.ignore .badChan)

/-- `PARSE` with no packet held (R131). -/
def State.parseNothing (s : State) : State :=
  ({ s.begin with lastCls := .none, lastRid := 0 }).raise .noPacket .none

/-- PARSE (R130): no packet held, or the class row the demux gives the held packet, by `RXCHAN` (log 13). -/
def execParse (s : State) : Out :=
  match s.rxvalid with
  | false => .next s.parseNothing
  | true =>
    match decodePacket s.cfg s.rxchan s.firstByte with
    | .cmd => execPktCmd s
    | .exe => execPktExe s
    | .ctlProdid => execPktCtlProdid s
    | .ctlCmdresp => execPktCtlCmdresp s
    | .ctlFrsresp => execPktCtlFrsresp s
    | .ctlOther => execPktCtlOther s
    | .rptBasets => execPktRptBasets s
    | .rptOther => execPktRptOther s
    | .wake => execPktWake s
    | .gyro => execPktGyro s
    | .badchan => execPktBadchan s

end Sys2Proof.Machine
end

