-- ==== Sys2Proof/Machine/FramerRx.lean ====
section
/-! DEFINITION. `RECV` (41_framer_rx.md). -/

namespace Sys2Proof.Machine

open Sys2Proof

/-- The chunk loop of R110 from payload byte `i` on: `T_READ`s of `min(n - i, T_MAX)` bytes until `n` are taken. It
answers whether every read was answered with bytes. `fuel` bounds the rounds: each takes a byte at least, so `n` rounds
are enough (R116, R126; log 19). -/
def State.payloadLoop (n : Nat) : Nat → Nat → State → Bool × State
  | 0, _, s => (true, s)
  | fuel + 1, i, s =>
    if i < n then
      match s.tRead (min (n - i) s.cfg.tMax) with
      | (.fault, t) => (false, t)
      | (.bytes c, t) => State.payloadLoop n fuel (i + min (n - i) s.cfg.tMax) (t.storeChunk i c)
    else (true, s)

/-- `RECV` once the header is accepted with payload length `n` (R115 to R120). -/
def State.recvPayload (n : Nat) (s : State) : State :=
  match ({ s with rxfsm := .awaitingPayload }).payloadLoop n n 0 with
  | (false, t) => ({ t with rxfsm := .timedOut }).raise .tfaultPay .fault
  | (true, t) =>
    ({ t with rxcnt := storedCount t.cfg n, trunc := truncFlag t.cfg n, rxvalid := true,
              rxfsm := .complete }).ret 0

/-- `RECV` once the header bytes have arrived: latch them, then judge the declared length (R111 to R115). -/
def State.recvHeader (h : Header) (s : State) : State :=
  let t := { s with rxhdr := h }
  if h.declaredLength = 0 then ({ t with rxfsm := .idle }).raise .zeroLen .none
  else if h.declaredLength < 4 then ({ t with rxfsm := .idle }).raise .shortLen .none
  else
    ({ t with rxchan := h.b2, rxseq := h.b3,
              rxlen := BitVec.ofNat 15 (h.declaredLength - 4) }).recvPayload (h.declaredLength - 4)

/-- `RECV` (R110). -/
def State.recv (s : State) : State :=
  match ({ s.begin.dropPacket with rxfsm := .awaitingHeader }).tRead 4 with
  | (.fault, t) => ({ t with rxfsm := .timedOut }).raise .tfaultHdr .fault
  | (.bytes bs, t) => t.recvHeader (Header.ofBytes bs)

/-- RECV (R110). -/
def execRecv (s : State) : Out := .next s.recv

end Sys2Proof.Machine
end

