-- ==== Sys2Proof/Machine/FramerTx.lean ====
section
/-! DEFINITION. `SEND` (40_framer_tx.md). -/

namespace Sys2Proof.Machine

open Sys2Proof

/-- The packet `SEND ch, n` hands to the transport: header and payload together (R101, R108). -/
def State.txPacket (s : State) (ch : Byte) (n : Nat) : List Byte :=
  (Header.build ch n (s.seqRead ch.toNat)).bytes ++ s.payload n

/-- `SEND ch, n` with legal operands (R100): the held packet is dropped, the counter moves before the write and whatever
its answer (R103, R105). -/
def State.send (ch : Byte) (n : Nat) (s : State) : State :=
  let cleared := { s.begin.dropPacket with rxfsm := .idle }
  let counted := cleared.seqWrite ch.toNat (s.seqRead ch.toNat + 1)
  match counted.tWrite (s.txPacket ch n) with
  | (.ok, t) => t.ret 0
  | (.nack, t) => t.raise .txNack .fault

/-- SEND (R100, R104). -/
def execSend (ch : Byte) (n : Half) (s : State) : Out :=
  .next (if 5 < ch.toNat ∨ s.cfg.maxPayload < n.toNat then s.refuse else s.send ch n.toNat)

end Sys2Proof.Machine
end

