-- ==== Sys2Proof/Machine/Qformat.lean ====
section
/-! DEFINITION. Q-format conversion and the Value Store accessors (44_qformat.md): `CVT`, `GETR`, `GETF`, `GETA`, `GETT`. -/

namespace Sys2Proof.Machine

open Sys2Proof

/-- `s16(v)`, the two's complement reading (00_scope.md R12; log 10). -/
def s16 (v : Half) : Int := if v.toNat < 0x8000 then (v.toNat : Int) else (v.toNat : Int) - 0x10000

/-- The sign bit of a binary32 pattern, in place (R182). -/
def f32sign (r : Int) : Nat := if r < 0 then 1 <<< 31 else 0

/-- `f32bits(r, q)`: the binary32 pattern of `r / 2^q` (R182; log 10), a normal number while `E = e - q >= -126`. -/
def f32bits (r : Int) (q : Nat) : Word :=
  let m := r.natAbs
  let e := Nat.log2 m
  if r = 0 then 0
  else if q ≤ e + 126 then
    BitVec.ofNat 32 (f32sign r ||| ((e + 127 - q) <<< 23) ||| ((m <<< (23 - e)) &&& 0x7FFFFF))
  else BitVec.ofNat 32 (f32sign r ||| (m <<< (149 - q)))

/-- `CVT raw, q` as a function of the pair: `none` where it is refused (R181, R184, R185). -/
def convert (raw : Half) (q : Byte) : Option Word :=
  if s16 raw = 0 then some 0
  else if 149 < q.toNat then none
  else some (f32bits (s16 raw) q.toNat)

/-- An operation that only reads: `OK` with the value read, or refused where there is none (R192, 60_exceptions.md
R228). -/
def State.access (v : Option Word) (s : State) : State :=
  match v with
  | some d => s.begin.ret d
  | none => s.refuse

/-- CVT (R181). -/
def execCvt (raw : Half) (q : Byte) (s : State) : Out := .next (s.access (convert raw q))

/-- GETR (R187). -/
def execGetr (slot comp : Byte) (s : State) : Out :=
  .next (s.access ((s.cell slot comp).map (·.setWidth 32)))

/-- The binary32 pattern of a cell, converted at the time of the read; `none` without a cell or a Q-point (R188). -/
def State.cellFloat (s : State) (slot comp : Byte) : Option Word :=
  match s.cell slot comp, qPoint s.cfg slot comp with
  | some v, some q => some (f32bits (s16 v) q.toNat)
  | _, _ => none

/-- GETF (R188). -/
def execGetf (slot comp : Byte) (s : State) : Out := .next (s.access (s.cellFloat slot comp))

/-- GETA (R190). -/
def execGeta (slot : Byte) (s : State) : Out := .next (s.access ((s.slotAccy slot).map (·.setWidth 32)))

/-- GETT (R191). -/
def execGett (slot : Byte) (s : State) : Out := .next (s.access (s.slotTs slot))

/-- The number a finite binary32 pattern stands for (R182): the conversion's results are read back with it. -/
def f32value (w : Word) : Rat :=
  let sign : Rat := if w.getLsbD 31 then -1 else 1
  let expo := (w.toNat >>> 23) &&& 0xFF
  let frac := w.toNat &&& 0x7FFFFF
  if expo = 0 then sign * (frac : Rat) / (2 : Rat) ^ 149
  else sign * ((0x800000 + frac : Nat) : Rat) * (2 : Rat) ^ expo / (2 : Rat) ^ 150

end Sys2Proof.Machine
end

