-- ==== Sys2Proof/Machine/HostAccess.lean ====
section
/-! DEFINITION. Buffer access, status read, connection reset, the undefined operation codes and the pseudo-operations
(45_host_access.md, 30_encoding.md R94): `LDB`, `STB`, `RDSR`, `CONNECT`, `POLL`, `FILL`, `SENDP`. -/

namespace Sys2Proof.Machine

open Sys2Proof

/-- LDB (R200). -/
def execLdb (addr : Half) (s : State) : Out :=
  .next (s.access (if addr.toNat < s.cfg.maxPayload then some ((s.readByte addr.toNat).setWidth 32) else none))

/-- STB (R201). -/
def execStb (addr : Half) (byte : Byte) (s : State) : Out :=
  .next (if addr.toNat < s.cfg.maxPayload then (s.begin.writeByte addr.toNat byte).ret 0 else s.refuse)

/-- RDSR: the registers as they are before the operation, so select `0x15` gives the cause of the previous one (R202). -/
def execRdsr (sel : Byte) (s : State) : Out := .next (s.access (s.statusReg sel))

/-- `CONNECT` (R203): the counters, the receive registers and the verdict of the last `PARSE`; `BUF` and the Value Store
keep their contents. -/
def State.connect (s : State) : State :=
  ({ s.begin with
      seq := #v[0, 0, 0, 0, 0, 0], rxhdr := ⟨0, 0, 0, 0⟩, rxchan := 0, rxseq := 0, rxlen := 0, rxcnt := 0,
      rxvalid := false, trunc := false, rxfsm := .idle, lastCls := .none, lastRid := 0 }).ret 0

/-- CONNECT (R203). -/
def execConnect (s : State) : Out := .next s.connect

/-- An operation code that names no operation (R205): refused, nothing else changes. -/
def execUnknownOp (s : State) : Out := .next s.refuse

/-- `POLL`: `RECV`, then `PARSE` if and only if the `RECV` returned `OK` (R204, 30_encoding.md R94). It has no operation
code (log 20); a `RECV` that did not return `OK` has driven `RDATA = 0` already. -/
def poll (s : State) : Out :=
  if s.recv.res = .ok then execParse s.recv else .next s.recv

/-- `FILL a, b0 b1 ...` as the operations the host presents (30_encoding.md R94). DESIGN CHOICE (log 20): an address
`a + k` above the 16-bit port `ADDR` (10_state.md R47) is presented modulo `2 ^ 16`; R94 does not say what is presented
then. -/
def fillInputs (a : Nat) : List Byte → List HostInput
  | [] => []
  | b :: bs => .op (HostCmd.mk 0x05 0 0 (BitVec.ofNat 16 a) b 0 0 0 0 0) :: fillInputs (a + 1) bs

/-- `SENDP ch, b0 ... bm` as the operations the host presents (30_encoding.md R94). DESIGN CHOICE (log 20): a byte count
`m + 1` above the 16-bit port `N` (10_state.md R47) is presented modulo `2 ^ 16`, as the addresses of its `FILL` are; R94
does not say what is presented then. -/
def sendpInputs (ch : Byte) (bs : List Byte) : List HostInput :=
  fillInputs 0 bs ++ [.op (HostCmd.mk 0x01 ch (BitVec.ofNat 16 bs.length) 0 0 0 0 0 0 0)]

end Sys2Proof.Machine
end

