-- ==== Sys2Proof/Machine/Dispatch.lean ====
section
/-! DEFINITION. The dispatch: one arm per constructor of `Instr`, in the opcode table's order. -/

namespace Sys2Proof.Machine

def exec (i : Instr) (s : State) : Host.Outcome State Fault Refusal :=
  match i with
  | .connect => Sys2Proof.Machine.execConnect s
  | .send ch n => Sys2Proof.Machine.execSend ch n s
  | .recv => Sys2Proof.Machine.execRecv s
  | .parse => Sys2Proof.Machine.execParse s
  | .ldb addr => Sys2Proof.Machine.execLdb addr s
  | .stb addr byte => Sys2Proof.Machine.execStb addr byte s
  | .rdsr sel => Sys2Proof.Machine.execRdsr sel s
  | .cvt raw q => Sys2Proof.Machine.execCvt raw q s
  | .getr slot comp => Sys2Proof.Machine.execGetr slot comp s
  | .getf slot comp => Sys2Proof.Machine.execGetf slot comp s
  | .geta slot => Sys2Proof.Machine.execGeta slot s
  | .gett slot => Sys2Proof.Machine.execGett slot s
  | .pktCmd => Sys2Proof.Machine.execPktCmd s
  | .pktExe => Sys2Proof.Machine.execPktExe s
  | .pktCtlProdid => Sys2Proof.Machine.execPktCtlProdid s
  | .pktCtlCmdresp => Sys2Proof.Machine.execPktCtlCmdresp s
  | .pktCtlFrsresp => Sys2Proof.Machine.execPktCtlFrsresp s
  | .pktCtlOther => Sys2Proof.Machine.execPktCtlOther s
  | .pktRptBasets => Sys2Proof.Machine.execPktRptBasets s
  | .pktRptOther => Sys2Proof.Machine.execPktRptOther s
  | .pktWake => Sys2Proof.Machine.execPktWake s
  | .pktGyro => Sys2Proof.Machine.execPktGyro s
  | .pktBadchan => Sys2Proof.Machine.execPktBadchan s
  | .rptAcc => Sys2Proof.Machine.execRptAcc s
  | .rptLin => Sys2Proof.Machine.execRptLin s
  | .rptGyr => Sys2Proof.Machine.execRptGyr s
  | .rptMag => Sys2Proof.Machine.execRptMag s
  | .rptRv => Sys2Proof.Machine.execRptRv s
  | .rptRvv1 => Sys2Proof.Machine.execRptRvv1 s
  | .rptRvv2 => Sys2Proof.Machine.execRptRvv2 s
  | .rptRvv3 => Sys2Proof.Machine.execRptRvv3 s
  | .rptStep => Sys2Proof.Machine.execRptStep s
  | .rptStab => Sys2Proof.Machine.execRptStab s
  | .rptAct => Sys2Proof.Machine.execRptAct s
  | .rptRawacc => Sys2Proof.Machine.execRptRawacc s
  | .rptRawgyr => Sys2Proof.Machine.execRptRawgyr s
  | .rptRawmag => Sys2Proof.Machine.execRptRawmag s
  | .rptOther => Sys2Proof.Machine.execRptOther s

end Sys2Proof.Machine
end

