-- ==== Sys2Proof/Machine/Front.lean ====
section
/-! DEFINITION. The front end of a step: what the block does with what the host presents next, and how an opcode-table
word is presented (log 8). -/

namespace Sys2Proof.Machine

open Sys2Proof

/-- Run the operation on the ports (30_encoding.md R88); a code that names none is refused by the block (R205). -/
def runCommand (c : HostCmd) (s : State) : Out :=
  match decodeHost c with
  | .ok i => exec i s
  | .error _ => execUnknownOp s

/-- Take what the host presents next. With nothing presented the block waits (70_reset_and_hazards.md R252, R261); with
an operation presented while one is in progress there is no step (R262, U17). -/
def runInput (s : State) : Out :=
  match s.inputs with
  | [] => .next s
  | .powerOn :: rest => .next (s.powerOn rest)
  | .op c :: rest =>
    if s.rxfsm.inProgress then .fault .operationInProgress else runCommand c { s with inputs := rest }

/-- The host presents `c` next. -/
def State.present (c : HostCmd) (s : State) : State := { s with inputs := .op c :: s.inputs }

/-- A packet with header `h` and payload `payload` is held, as after a `RECV` that returned `OK` (41_framer_rx.md
R110). -/
def State.hold (h : Header) (payload : List Byte) (s : State) : State :=
  ({ s with rxhdr := h, rxchan := h.b2, rxseq := h.b3, rxlen := BitVec.ofNat 15 payload.length,
            rxcnt := storedCount s.cfg payload.length, trunc := truncFlag s.cfg payload.length,
            rxvalid := true, rxfsm := .complete }).storeChunk 0 payload

/-- The operation code alone, every operand port 0. -/
def plainCmd (op : Byte) : HostCmd := HostCmd.mk op 0 0 0 0 0 0 0 0 0

/-- Hold the packet of decode word `w` with a payload of 19 bytes (the longest the block interprets, R77), zero but for
its first byte, and present `PARSE`. -/
def State.presentPacket (w : Nat) (s : State) : State :=
  (s.hold ⟨BitVec.ofNat 8 w, BitVec.ofNat 8 (w >>> 8), BitVec.ofNat 8 (w >>> 16), BitVec.ofNat 8 (w >>> 24)⟩
    (BitVec.ofNat 8 (w >>> 32) :: List.replicate 18 0)).present (plainCmd 0x03)

/-- Hold a Reports-channel sensor packet of 19 payload bytes with embedded report ID `rid`, zero elsewhere, and present
`PARSE`. -/
def State.presentReport (rid : Byte) (s : State) : State :=
  (s.hold ⟨0x17, 0, 3, 0⟩
    ([s.cfg.ridBaseTimestamp, 0, 0, 0, 0, rid] ++ List.replicate 13 0)).present (plainCmd 0x03)

/-- Present the opcode-table word `w` of `nbits` bits, read as `decodeTableWord` reads it (log 8). -/
def State.presentTableWord (s : State) (nbits w : Nat) : State :=
  if nbits = 40 then s.presentPacket w
  else
    match decodeHost (plainCmd (BitVec.ofNat 8 w)) with
    | .ok _ => s.present (plainCmd (BitVec.ofNat 8 w))
    | .error _ => s.presentReport (BitVec.ofNat 8 w)

end Sys2Proof.Machine
end

