-- ==== Sys2Proof/Machine/Step.lean ====
section
/-! DEFINITION. One step: the parameters are checked (00_scope.md R9, U16), then the next host input is taken. -/

namespace Sys2Proof.Machine

open Sys2Proof

/-- One step of the machine. -/
def step (s : State) : Host.Outcome State Fault Refusal :=
  if s.cfg.check then runInput s else .refused .badConfig

/-- `s` with the opcode-table word presented where `step` takes its next operation (log 8). -/
def State.withFetchWord (s : State) (nbits w : Nat) : State := s.presentTableWord nbits w

end Sys2Proof.Machine
end

