-- ==== Sys2Proof/Safety.lean ====
section
/-! DEFINITION. The terms claims are stated in: the invariant of an operation boundary (10_state.md R44, R27) with the
canonical form of `BUF`, the register table of a reset (70_reset_and_hazards.md R250), what two states have in common,
and runs of operations. A safe step is one that answers a next state: there is no error state to reach in this block. -/

namespace Sys2Proof.Machine

open Sys2Proof

/-! ### The invariant -/

/-- R44 (i) to (iii): the flags and the receive registers describe the held packet. -/
structure State.PacketInv (s : State) : Prop where
  valid_iff_complete : s.rxvalid = true ↔ s.rxfsm = .complete
  count : s.rxvalid = true → s.rxcnt.toNat = min s.rxlen.toNat s.cfg.maxPayload
  truncated : s.rxvalid = true → (s.trunc = true ↔ s.cfg.maxPayload < s.rxlen.toNat)
  channel : s.rxvalid = true → s.rxchan = s.rxhdr.b2
  sequence : s.rxvalid = true → s.rxseq = s.rxhdr.b3
  length : s.rxvalid = true → s.rxlen.toNat + 4 = ((s.rxhdr.b1.toNat &&& 0x7F) <<< 8) ||| s.rxhdr.b0.toNat
  nothing_held : s.rxvalid = false → s.rxcnt = 0 ∧ s.trunc = false

/-- `BUF` is in its canonical form and lists addresses `0..MAX_PAYLOAD - 1` only (R41, 20_memory.md R57). -/
structure State.BufInv (s : State) : Prop where
  canonical : Memory.wf s.buf
  inRange : ∀ c ∈ s.buf, c.1 < s.cfg.maxPayload

/-- The invariant of an operation boundary: legal parameters (00_scope.md R9), R44, the form of `BUF`, and no operation
in progress (R27). -/
structure State.Inv (s : State) : Prop where
  config : s.cfg.WellFormed
  packet : s.PacketInv
  buffer : s.BufInv
  boundary : s.rxfsm ≠ .awaitingHeader ∧ s.rxfsm ≠ .awaitingPayload

/-! ### What two states have in common -/

/-- The register table of R250: what power-on and `CONNECT` leave. -/
structure State.ResetRegisters (s : State) : Prop where
  counters : ∀ c, s.seqRead c = 0
  header : s.rxhdr = ⟨0, 0, 0, 0⟩
  chan : s.rxchan = 0
  rxseq : s.rxseq = 0
  rxlen : s.rxlen = 0
  rxcnt : s.rxcnt = 0
  valid : s.rxvalid = false
  trunc : s.trunc = false
  fsm : s.rxfsm = .idle
  cause : s.cause = .cNone
  lastCls : s.lastCls = .none
  lastRid : s.lastRid = 0

/-- Every field of every Value Store slot is the same (R33). -/
structure SameValueStore (s t : State) : Prop where
  acc : t.acc = s.acc
  lin : t.lin = s.lin
  gyr : t.gyr = s.gyr
  mag : t.mag = s.mag
  quat : t.quat = s.quat
  fgyr : t.fgyr = s.fgyr
  rawacc : t.rawacc = s.rawacc
  rawgyr : t.rawgyr = s.rawgyr
  rawmag : t.rawmag = s.rawmag
  stepCnt : t.stepCnt = s.stepCnt
  stab : t.stab = s.stab
  act : t.act = s.act

/-- Every byte of `BUF` reads the same (R41). -/
def SameBuf (s t : State) : Prop := ∀ a, t.readByte a = s.readByte a

/-- The header registers are the same (R22 to R25). -/
structure SameHeader (s t : State) : Prop where
  rxhdr : t.rxhdr = s.rxhdr
  rxchan : t.rxchan = s.rxchan
  rxseq : t.rxseq = s.rxseq
  rxlen : t.rxlen = s.rxlen

/-- The held packet's registers and flags are the same (R22 to R29). -/
structure SamePacket (s t : State) : Prop extends SameHeader s t where
  rxcnt : t.rxcnt = s.rxcnt
  rxfsm : t.rxfsm = s.rxfsm
  rxvalid : t.rxvalid = s.rxvalid
  trunc : t.trunc = s.trunc

/-- The verdict of the last `PARSE` is the same (R31, R32). -/
structure SameVerdict (s t : State) : Prop where
  lastCls : t.lastCls = s.lastCls
  lastRid : t.lastRid = s.lastRid

/-- No transport request was issued: the trace and the answers still to come are the same (R43, R272). -/
structure SameTransport (s t : State) : Prop where
  rdStream : t.rdStream = s.rdStream
  wrAnswers : t.wrAnswers = s.wrAnswers
  draws : t.draws = s.draws
  trace : t.trace = s.trace

/-- The parameters, the pending host inputs and the power-on count are the same: no meaning writes them. -/
structure SameInstance (s t : State) : Prop where
  cfg : t.cfg = s.cfg
  inputs : t.inputs = s.inputs
  epoch : t.epoch = s.epoch

/-- `s` with what the end of an operation reports: `CAUSE`, `RES`, `RDATA`. -/
def State.report (c : Cause) (r : Res) (d : Word) (s : State) : State := { s with cause := c, res := r, rdata := d }

/-! ### Fields of a held packet, read bytewise -/

/-- The little-endian word at offset `a`, from its two bytes (20_memory.md R53). -/
def State.wordAt (s : State) (a : Nat) : Half := s.readByte (a + 1) ++ s.readByte a

/-- Data word `Wk` of a sensor report, `k` in 1..5: present if the packet holds both its bytes (30_encoding.md R77), else 0
(43_report_decode.md R152). -/
def State.presentWord (s : State) (k : Nat) : Half :=
  if 9 + 2 * k ≤ s.rxcnt.toNat then s.wordAt (7 + 2 * k) else 0

/-- The timestamp of a sensor report, from its four bytes (R77). -/
def State.stampBytes (s : State) : Word := s.readByte 4 ++ s.readByte 3 ++ s.readByte 2 ++ s.readByte 1

/-- Bits 1:0 of the status byte of a sensor report (R79). -/
def State.statusBits (s : State) : BitVec 2 := (s.readByte 7).extractLsb' 0 2

/-- What a scalar selector takes from a sensor report (43_report_decode.md R171). -/
def State.selected (s : State) (p : ScalSel) : Half :=
  match p.part with
  | .full => s.presentWord p.k
  | .lo => ((s.presentWord p.k).extractLsb' 0 8).setWidth 16
  | .hi => ((s.presentWord p.k).extractLsb' 8 8).setWidth 16

/-- What a three-component report leaves in its slot, from the packet's bytes (43_report_decode.md R153). -/
def State.vecBytes (s : State) : VecSlot :=
  ⟨s.presentWord 1, s.presentWord 2, s.presentWord 3, s.statusBits, s.stampBytes⟩

/-- What a rotation-vector report leaves in `QUAT`, from the packet's bytes (43_report_decode.md R153, R158). -/
def State.quatBytes (s : State) : QuatSlot :=
  ⟨s.presentWord 1, s.presentWord 2, s.presentWord 3, s.presentWord 4, s.presentWord 5, s.statusBits, s.stampBytes⟩

/-- What a scalar report leaves in its slot, from the packet's bytes (43_report_decode.md R153, R162). -/
def State.scalarBytes (s : State) (p : ScalSel) : ScalarSlot := ⟨s.selected p, s.statusBits, s.stampBytes⟩

/-- `s` with the verdict of a `PARSE` that returned report ID `rid` for class `cls` (42_demux.md R130). -/
def State.returning (cls : PktClass) (rid : Byte) (s : State) : State :=
  { s with cause := .cNone, lastCls := cls, lastRid := rid, res := .ok, rdata := BitVec.ofNat 32 rid.toNat }

/-- `s` with the verdict of a `PARSE` that returned 0 for class `cls` with cause `c` (42_demux.md R130). -/
def State.returningNone (cls : PktClass) (c : Cause) (s : State) : State :=
  { s with cause := c, lastCls := cls, lastRid := 0, res := .none, rdata := 0 }

/-! ### Runs of operations -/

/-- Run operations one after another, stopping at the first that answers no next state. -/
def runOps : List Instr → State → Out
  | [], s => .next s
  | i :: is, s =>
    match exec i s with
    | .next t => runOps is t
    | .fault r => .fault r
    | .refused r => .refused r

/-- The sequence bytes of the packets a trace shows written on channel `ch`, in order (R43, 30_encoding.md R70). -/
def sequenceBytesOn (ch : Byte) : List TraceEntry → List Byte
  | [] => []
  | .write bs _ :: es =>
    if bs.getD 2 0 = ch then bs.getD 3 0 :: sequenceBytesOn ch es else sequenceBytesOn ch es
  | .read _ _ :: es => sequenceBytesOn ch es

/-- The payload reads of a `RECV` that takes `bs`, each with its answer: `ceil (|bs| / tMax)` requests, the one from byte
`j * tMax` on for as many bytes as are left, `tMax` at most (41_framer_rx.md R116, 10_state.md R43). -/
def payloadReads (tMax : Nat) (bs : List Byte) : List TraceEntry :=
  (List.range ((bs.length + tMax - 1) / tMax)).map fun j =>
    .read (min (bs.length - j * tMax) tMax) (.bytes ((bs.drop (j * tMax)).take tMax))

/-! ### The spec's select tables, row by row -/

/-- The rows of 10_state.md R46: select, and the register's value zero-extended. -/
def State.statusTable (s : State) : List (Byte × Nat) :=
  [(0x00, (s.seqRead 0).toNat), (0x01, (s.seqRead 1).toNat), (0x02, (s.seqRead 2).toNat),
   (0x03, (s.seqRead 3).toNat), (0x04, (s.seqRead 4).toNat), (0x05, (s.seqRead 5).toNat),
   (0x10, s.rxvalid.toNat + 2 * s.trunc.toNat), (0x11, s.rxchan.toNat), (0x12, s.rxseq.toNat),
   (0x13, s.rxlen.toNat), (0x14, s.rxcnt.toNat), (0x15, s.cause.code.toNat), (0x16, s.lastRid.toNat),
   (0x17, s.lastCls.code.toNat), (0x18, s.rxfsm.code.toNat),
   (0x19, s.rxhdr.b0.toNat + 256 * s.rxhdr.b1.toNat + 65536 * s.rxhdr.b2.toNat + 16777216 * s.rxhdr.b3.toNat)]

/-- The cells of 30_encoding.md R90 that have a Q-point: slot, component, stored pattern, Q-point (44_qformat.md R189). -/
def State.convertibleTable (s : State) : List (Byte × Byte × Half × Byte) :=
  [(0, 0, s.acc.x, s.cfg.qpAcc), (0, 1, s.acc.y, s.cfg.qpAcc), (0, 2, s.acc.z, s.cfg.qpAcc),
   (1, 0, s.lin.x, s.cfg.qpLin), (1, 1, s.lin.y, s.cfg.qpLin), (1, 2, s.lin.z, s.cfg.qpLin),
   (2, 0, s.gyr.x, s.cfg.qpGyr), (2, 1, s.gyr.y, s.cfg.qpGyr), (2, 2, s.gyr.z, s.cfg.qpGyr),
   (3, 0, s.mag.x, s.cfg.qpMag), (3, 1, s.mag.y, s.cfg.qpMag), (3, 2, s.mag.z, s.cfg.qpMag),
   (4, 0, s.quat.i, s.cfg.qpRot), (4, 1, s.quat.j, s.cfg.qpRot), (4, 2, s.quat.k, s.cfg.qpRot),
   (4, 3, s.quat.real, s.cfg.qpRot), (4, 4, s.quat.radacc, s.cfg.qpRadacc),
   (5, 0, s.fgyr.x, s.cfg.qpFgyr), (5, 1, s.fgyr.y, s.cfg.qpFgyr), (5, 2, s.fgyr.z, s.cfg.qpFgyr)]

/-- The cells of R90 without a Q-point: slot, component, stored pattern. -/
def State.plainTable (s : State) : List (Byte × Byte × Half) :=
  [(6, 0, s.rawacc.x), (6, 1, s.rawacc.y), (6, 2, s.rawacc.z),
   (7, 0, s.rawgyr.x), (7, 1, s.rawgyr.y), (7, 2, s.rawgyr.z),
   (8, 0, s.rawmag.x), (8, 1, s.rawmag.y), (8, 2, s.rawmag.z),
   (9, 0, s.stepCnt.val), (10, 0, s.stab.val), (11, 0, s.act.val)]

/-- Every cell of R90. -/
def State.cellTable (s : State) : List (Byte × Byte × Half) :=
  s.convertibleTable.map (fun r => (r.1, r.2.1, r.2.2.1)) ++ s.plainTable

/-- The slots of R90 that have an accuracy and a timestamp: slot, `ACCY`, `TS`. -/
def State.stampTable (s : State) : List (Byte × BitVec 2 × Word) :=
  [(0, s.acc.accy, s.acc.ts), (1, s.lin.accy, s.lin.ts), (2, s.gyr.accy, s.gyr.ts), (3, s.mag.accy, s.mag.ts),
   (4, s.quat.accy, s.quat.ts), (6, s.rawacc.accy, s.rawacc.ts), (7, s.rawgyr.accy, s.rawgyr.ts),
   (8, s.rawmag.accy, s.rawmag.ts), (9, s.stepCnt.accy, s.stepCnt.ts), (10, s.stab.accy, s.stab.ts),
   (11, s.act.accy, s.act.ts)]

end Sys2Proof.Machine
end

