-- ==== Sys2Proof/Certificates/Slice0/Obligations.lean ====
section
/-! DEFINITION. The statements for the provers, listed in OBLIGATIONS.json. A docstring names the rules of spec/ a statement
rests on; where a clause is the model's own, it names the log entry. -/

open Sys2Proof Sys2Proof.Machine

/-! ### Encoding -/

/-- Decode and encode agree for every instruction, every operand at every value, under every legal configuration
(30_encoding.md R76, R80, R88, R96). -/
def Obligations.DecodingAnEncodedInstructionGivesItBack : Prop :=
  ∀ (cfg : Config) (i : Instr), cfg.WellFormed → decode cfg (encode cfg i) = .ok i

/-- A few words written out from the spec's tables decode to what they stand for (R76, R80, R88, 95_test_vectors.md P1,
P2, P4). -/
def Obligations.WrittenOutWordsDecode : Prop :=
  decode Config.suggested (.host { op := 0x01, ch := 0x02, n := 0x010F }) = .ok (.send 2 271) ∧
  decode Config.suggested (.host { op := 0x04, addr := 0x010D }) = .ok (.ldb 269) ∧
  decode Config.suggested (.host { op := 0x09, slot := 0x04, comp := 0x03 }) = .ok (.getf 4 3) ∧
  decode Config.suggested (.packet 0xF105028130 270) = .ok .pktCtlCmdresp ∧
  decode Config.suggested (.packet 0xFB07030013 15) = .ok .pktRptBasets ∧
  decode Config.suggested (.report 0x1E) = .ok .rptAct

/-- The demux and the routing take the first row of the opcode table that selects the word (R76, R80, R96). -/
def Obligations.PacketAndReportWordsTakeTheFirstTableRow : Prop :=
  ∀ (cfg : Config) (dw : BitVec 40) (rid : Byte) (cnt : Nat),
    firstMatch (pktTable cfg) dw.toNat cnt = some (decodePacketWord cfg dw cnt) ∧
    (13 ≤ cnt → firstMatch (rptTable cfg) rid.toNat cnt = some (decodeReport cfg rid))

/-! ### The step -/

/-- A step runs the operation on the ports, with the operation taken from what the host presents (00_scope.md R13). That
inputs are a list in State is the model's (log 2). -/
def Obligations.StepRunsTheDecodedOperation : Prop :=
  ∀ (s : State) (c : HostCmd) (rest : List HostInput) (i : Instr),
    s.cfg.WellFormed → s.inputs = .op c :: rest → s.rxfsm ≠ .awaitingHeader → s.rxfsm ≠ .awaitingPayload →
    decodeHost c = .ok i → step s = exec i { s with inputs := rest }

/-- An operation code that names no operation is refused, and nothing else changes (45_host_access.md R205). That inputs are a
list in State is the model's (log 2). -/
def Obligations.StepRefusesAnUnknownOperationCode : Prop :=
  ∀ (s : State) (c : HostCmd) (rest : List HostInput),
    s.cfg.WellFormed → s.inputs = .op c :: rest → s.rxfsm ≠ .awaitingHeader → s.rxfsm ≠ .awaitingPayload →
    0x0C ≤ c.op.toNat →
    step s = .next { s with inputs := rest, cause := .refused, res := .refused, rdata := 0 }

/-- With nothing presented the block waits and does nothing (70_reset_and_hazards.md R252, R261). That waiting is a
step is the model's (log 2). -/
def Obligations.StepWaitsWhenNothingIsPresented : Prop :=
  ∀ s : State, s.cfg.WellFormed → s.inputs = [] → step s = .next s

/-- A step is refused exactly when the configuration breaks a constraint of 00_scope.md R7, R8 or R9 (R9, U16). That the
refusal is what a step answers, and that a `MAX_PAYLOAD` other than the 270 of R7 and D6 is among what is refused though
the list of U16 does not name it, is the model's (log 11). -/
def Obligations.StepIsRefusedExactlyForABrokenConfiguration : Prop :=
  ∀ s : State, (∃ r, step s = .refused r) ↔ ¬ s.cfg.WellFormed

/-- There is no step that starts an operation inside another (70_reset_and_hazards.md R262, U17). That such a state stops is the
model's (log 9). -/
def Obligations.StepStopsExactlyInsideAnotherOperation : Prop :=
  ∀ s : State, s.cfg.WellFormed →
    (step s = .fault .operationInProgress ↔
      (s.rxfsm = .awaitingHeader ∨ s.rxfsm = .awaitingPayload) ∧ ∃ c rest, s.inputs = .op c :: rest)

/-- No operation stops the machine: every one ends with a result (60_exceptions.md R220, R234). -/
def Obligations.EveryOperationEndsWithAResult : Prop :=
  ∀ (i : Instr) (s : State), ∃ t, exec i s = .next t

/-- `PARSE` of a held packet is what the class of its decode word says (42_demux.md R130, 30_encoding.md R76). The premise
on `RXCHAN` is the invariant's (10_state.md R44). -/
def Obligations.ParseRunsTheClassOfTheDecodeWord : Prop :=
  ∀ s : State, s.rxvalid = true → s.rxchan = s.rxhdr.b2 →
    exec .parse s = exec (decodePacketWord s.cfg s.decodeWord s.rxcnt.toNat).instr s

/-- The base-timestamp class is what the routing map says of the embedded report ID (42_demux.md R140, 43_report_decode.md
R150). -/
def Obligations.BaseTimestampPacketRunsItsReportType : Prop :=
  ∀ s : State, exec .pktRptBasets s = exec (decodeReport s.cfg (s.readByte 5)).instr s

/-! ### Reset and the invariant -/

/-- Power-on, at reset or later, and `CONNECT` all leave the register table of 70_reset_and_hazards.md R250.
That power-on is one host input of a step is the model's (log 2). -/
def Obligations.BothResetEventsLeaveTheRegisterTable : Prop :=
  State.reset.ResetRegisters ∧
  (∀ (s t : State) (rest : List HostInput), s.inputs = .powerOn :: rest → step s = .next t → t.ResetRegisters) ∧
  (∀ s t : State, exec .connect s = .next t → t.ResetRegisters)

/-- `CONNECT` writes the register table and nothing else, issues no transport request, and is idempotent (45_host_access.md
R203). -/
def Obligations.ConnectResetsTheRegistersAndNothingElse : Prop :=
  ∀ s : State, ∃ t, exec .connect s = .next t ∧ t.ResetRegisters ∧ t.res = .ok ∧ t.rdata = 0 ∧
    SameValueStore s t ∧ SameBuf s t ∧ SameTransport s t ∧ SameInstance s t ∧ exec .connect t = .next t

/-- A power-on reset leaves the transport's pending bytes and the parameters alone, and every byte of `BUF` and every field
of the Value Store unspecified (70_reset_and_hazards.md R251). That it is one host input of a step, that the unspecified
contents are the free values of the new power-on, and that `RES` and `RDATA` are cleared by it, is the model's (log 2, log
5, log 6, log 7). -/
def Obligations.PowerOnKeepsThePendingTransportBytes : Prop :=
  ∀ (s : State) (rest : List HostInput), s.cfg.WellFormed → s.inputs = .powerOn :: rest →
    ∃ t, step s = .next t ∧ SameTransport s t ∧ t.cfg = s.cfg ∧ t.inputs = rest ∧
      t.epoch = s.epoch + 1 ∧ (∀ a, t.readByte a = Config.powerOnByte t.epoch a) ∧
      t.acc = VecSlot.powerOn t.epoch 0 ∧ t.lin = VecSlot.powerOn t.epoch 1 ∧
      t.gyr = VecSlot.powerOn t.epoch 2 ∧ t.mag = VecSlot.powerOn t.epoch 3 ∧
      t.quat = QuatSlot.powerOn t.epoch 4 ∧ t.fgyr = FgyrSlot.powerOn t.epoch 5 ∧
      t.rawacc = VecSlot.powerOn t.epoch 6 ∧ t.rawgyr = VecSlot.powerOn t.epoch 7 ∧
      t.rawmag = VecSlot.powerOn t.epoch 8 ∧ t.stepCnt = ScalarSlot.powerOn t.epoch 9 ∧
      t.stab = ScalarSlot.powerOn t.epoch 10 ∧ t.act = ScalarSlot.powerOn t.epoch 11 ∧
      t.res = .none ∧ t.rdata = 0

/-- The invariant of an operation boundary holds after reset (10_state.md R44, R45). -/
def Obligations.InvariantHoldsAfterReset : Prop := State.reset.Inv

/-- Every step keeps the invariant of an operation boundary, from every state that has it (10_state.md R44, R27, 20_memory.md
R57). The canonical form of `BUF` is the model's (log 5). -/
def Obligations.EveryStepKeepsTheInvariant : Prop :=
  ∀ s t : State, s.Inv → step s = .next t → t.Inv

/-- From a state with the invariant a step always answers a next state (60_exceptions.md R234). -/
def Obligations.NoStepStopsUnderTheInvariant : Prop :=
  ∀ s : State, s.Inv → ∃ t, step s = .next t

/-! ### Whole-machine rules: who writes what -/

/-- The sequence counters are written by `SEND` and `CONNECT` only (10_state.md R21). -/
def Obligations.OnlySendAndConnectWriteTheCounters : Prop :=
  ∀ (i : Instr) (s t : State), exec i s = .next t → i ≠ .connect → (∀ ch n, i ≠ .send ch n) →
    ∀ c, t.seqRead c = s.seqRead c

/-- A host operation other than `PARSE` leaves the whole Value Store alone (10_state.md R33). -/
def Obligations.OnlyParseWritesTheValueStore : Prop :=
  ∀ (c : HostCmd) (i : Instr) (s t : State), decodeHost c = .ok i → i ≠ .parse → exec i s = .next t →
    SameValueStore s t

/-- Every byte of `BUF` is left alone by every instruction but `RECV` and `STB` (10_state.md R41). -/
def Obligations.OnlyRecvAndStbWriteTheBuffer : Prop :=
  ∀ (i : Instr) (s t : State), exec i s = .next t → i ≠ .recv → (∀ a b, i ≠ .stb a b) → SameBuf s t

/-- `RXFSM`, `RXVALID`, `TRUNC` and `RXCNT` move in `CONNECT`, `SEND` and `RECV` only, and the header registers in
`CONNECT` and `RECV` only (41_framer_rx.md R125, 10_state.md R22, R23, R26, R28, R29). -/
def Obligations.HeldPacketRegistersMoveInThreeOperationsOnly : Prop :=
  ∀ (i : Instr) (s t : State), exec i s = .next t → i ≠ .connect → i ≠ .recv →
    SameHeader s t ∧ ((∀ ch n, i ≠ .send ch n) → SamePacket s t)

/-- Only `SEND` and `RECV` ask the transport anything; a `RECV` writes nothing to it and a `SEND` reads nothing from it
(70_reset_and_hazards.md R272). -/
def Obligations.OnlySendAndRecvAskTheTransport : Prop :=
  ∀ (i : Instr) (s t : State), exec i s = .next t → SameInstance s t ∧
    (i ≠ .recv → t.rdStream = s.rdStream) ∧ ((∀ ch n, i ≠ .send ch n) → t.wrAnswers = s.wrAnswers) ∧
    (i ≠ .recv → (∀ ch n, i ≠ .send ch n) → SameTransport s t)

/-- An operation with an illegal operand does nothing but report the refusal, and with legal operands only `CVT` is ever
refused (60_exceptions.md R228, R223, 30_encoding.md R89, 44_qformat.md R184). -/
def Obligations.RefusedExactlyForIllegalOperands : Prop :=
  ∀ (i : Instr) (s : State),
    (i.wellFormed s.cfg = false →
      exec i s = .next { s with cause := .refused, res := .refused, rdata := 0 }) ∧
    (i.wellFormed s.cfg = true → (∀ raw q, i ≠ .cvt raw q) →
      ∃ t, exec i s = .next t ∧ t.res ≠ .refused ∧ t.cause ≠ .refused)

/-! ### `SEND` -/

/-- `SEND` with legal operands: one write of the header, built from the operands and the counter, and the payload; the
counter of the channel moves by one whatever the answer, and no other; the held packet is dropped; one write answer is
taken, and nothing from the read stream; nothing else changes
(40_framer_tx.md R100, R101, R102, R103, R105, R106, R108). -/
def Obligations.SendWritesOnePacketAndCountsIt : Prop :=
  ∀ (s : State) (ch : Byte) (n : Half), ch.toNat ≤ 5 → n.toNat ≤ s.cfg.maxPayload →
    ∃ t, exec (.send ch n) s = .next t ∧
      t.trace = s.trace ++
        [.write ([BitVec.ofNat 8 ((n.toNat + 4) % 256), BitVec.ofNat 8 ((n.toNat + 4) / 256 % 128), ch,
                  s.seqRead ch.toNat] ++ (List.range n.toNat).map s.readByte)
          (nextWrite s.wrAnswers s.draws).1] ∧
      t.seqRead ch.toNat = s.seqRead ch.toNat + 1 ∧ (∀ c, c ≠ ch.toNat → t.seqRead c = s.seqRead c) ∧
      ((nextWrite s.wrAnswers s.draws).1 = .ok → t.res = .ok ∧ t.cause = .cNone) ∧
      ((nextWrite s.wrAnswers s.draws).1 = .nack → t.res = .fault ∧ t.cause = .txNack) ∧
      t.rdata = 0 ∧ t.rxvalid = false ∧ t.trunc = false ∧ t.rxcnt = 0 ∧ t.rxfsm = .idle ∧
      SameHeader s t ∧ SameVerdict s t ∧ SameValueStore s t ∧ SameBuf s t ∧ SameInstance s t ∧
      t.rdStream = s.rdStream ∧ t.wrAnswers = (nextWrite s.wrAnswers s.draws).2.1 ∧
      t.draws = (nextWrite s.wrAnswers s.draws).2.2

/-- `SEND` with an illegal channel or length does nothing but report the refusal (40_framer_tx.md R104). -/
def Obligations.SendWithAnIllegalOperandIsRefused : Prop :=
  ∀ (s : State) (ch : Byte) (n : Half), 5 < ch.toNat ∨ s.cfg.maxPayload < n.toNat →
    exec (.send ch n) s = .next { s with cause := .refused, res := .refused, rdata := 0 }

/-- The shortest and the longest packet: 4 header bytes alone, and 274 bytes with header `12 01` (40_framer_tx.md R107). -/
def Obligations.SendOfTheEmptyAndTheFullPayload : Prop :=
  ∀ (s : State) (ch : Byte), s.cfg.maxPayload = 270 → ch.toNat ≤ 5 →
    (∃ t, exec (.send ch 0) s = .next t ∧ t.seqRead ch.toNat = s.seqRead ch.toNat + 1 ∧
      ∃ ans, t.trace = s.trace ++ [.write [0x04, 0x00, ch, s.seqRead ch.toNat] ans]) ∧
    (∃ t, exec (.send ch 270) s = .next t ∧
      ∃ bs ans, t.trace = s.trace ++ [.write bs ans] ∧ bs.length = 274 ∧
        bs.take 4 = [0x12, 0x01, ch, s.seqRead ch.toNat] ∧ ∀ k, k < 270 → bs[4 + k]? = some (s.readByte k))

/-- Any run of sends, on any channels and whatever the transport answers: the sequence bytes written on a channel count up
by one from its counter, modulo 256, in send order, and other channels do not disturb them (40_framer_tx.md R102, R103,
R106). -/
def Obligations.SequenceBytesCountUpPerChannel : Prop :=
  ∀ (ops : List (Byte × Half)) (s : State),
    (∀ p ∈ ops, p.1.toNat ≤ 5 ∧ p.2.toNat ≤ s.cfg.maxPayload) →
    ∃ t es, runOps (ops.map fun p => Instr.send p.1 p.2) s = .next t ∧ t.trace = s.trace ++ es ∧
      ∀ ch : Byte, ch.toNat ≤ 5 →
        sequenceBytesOn ch es =
          (List.range (ops.countP (fun p => p.1 == ch))).map (fun k => s.seqRead ch.toNat + BitVec.ofNat 8 k) ∧
        t.seqRead ch.toNat = s.seqRead ch.toNat + BitVec.ofNat 8 (ops.countP (fun p => p.1 == ch))

/-! ### `RECV` -/

/-- Declared length 0, whatever the continuation flag: nothing pending (41_framer_rx.md R113, R112). -/
def Obligations.RecvOfAZeroLengthHeaderReturnsNone : Prop :=
  ∀ (s : State) (h0 h1 h2 h3 : Byte) (rest : List StreamItem) (d : Nat),
    takeBytes 4 s.rdStream s.draws = (some [h0, h1, h2, h3], rest, d) → h0 = 0 → h1.toNat % 128 = 0 →
    ∃ t, exec .recv s = .next t ∧ t.res = .none ∧ t.cause = .zeroLen ∧ t.rdata = 0 ∧ t.rxfsm = .idle ∧
      t.rxvalid = false ∧ t.trunc = false ∧ t.rxcnt = 0 ∧ t.rxhdr = ⟨h0, h1, h2, h3⟩ ∧
      t.rxchan = s.rxchan ∧ t.rxseq = s.rxseq ∧ t.rxlen = s.rxlen ∧ (∀ c, t.seqRead c = s.seqRead c) ∧
      t.trace = s.trace ++ [.read 4 (.bytes [h0, h1, h2, h3])] ∧ t.rdStream = rest ∧ t.draws = d ∧
      SameBuf s t ∧ SameValueStore s t ∧ SameVerdict s t ∧ SameInstance s t ∧ t.wrAnswers = s.wrAnswers

/-- Declared length 1, 2 or 3: malformed header, no payload read (41_framer_rx.md R114). -/
def Obligations.RecvOfAShortLengthHeaderReturnsNone : Prop :=
  ∀ (s : State) (h0 h1 h2 h3 : Byte) (rest : List StreamItem) (d : Nat),
    takeBytes 4 s.rdStream s.draws = (some [h0, h1, h2, h3], rest, d) →
    1 ≤ h0.toNat → h0.toNat ≤ 3 → h1.toNat % 128 = 0 →
    ∃ t, exec .recv s = .next t ∧ t.res = .none ∧ t.cause = .shortLen ∧ t.rdata = 0 ∧ t.rxfsm = .idle ∧
      t.rxvalid = false ∧ t.trunc = false ∧ t.rxcnt = 0 ∧ t.rxhdr = ⟨h0, h1, h2, h3⟩ ∧
      t.rxchan = s.rxchan ∧ t.rxseq = s.rxseq ∧ t.rxlen = s.rxlen ∧ (∀ c, t.seqRead c = s.seqRead c) ∧
      t.trace = s.trace ++ [.read 4 (.bytes [h0, h1, h2, h3])] ∧ t.rdStream = rest ∧ t.draws = d ∧
      SameBuf s t ∧ SameValueStore s t ∧ SameVerdict s t ∧ SameInstance s t ∧ t.wrAnswers = s.wrAnswers

/-- A fault on the header read: the packet is gone, the header registers and `BUF` stay (41_framer_rx.md R119). Where the read
stream stands after the fault is open (20_memory.md R60, U4): that the faulted request has consumed the fault and the bytes
before it, which are lost, is the model's choice (log 4), and so is the count of the free answers drawn (log 3). -/
def Obligations.RecvWithAHeaderFaultTimesOut : Prop :=
  ∀ s : State, (takeBytes 4 s.rdStream s.draws).1 = none →
    ∃ t, exec .recv s = .next t ∧ t.res = .fault ∧ t.cause = .tfaultHdr ∧ t.rdata = 0 ∧ t.rxfsm = .timedOut ∧
      t.rxvalid = false ∧ t.trunc = false ∧ t.rxcnt = 0 ∧ SameHeader s t ∧ SameBuf s t ∧
      (∀ c, t.seqRead c = s.seqRead c) ∧ t.trace = s.trace ++ [.read 4 .fault] ∧
      t.rdStream = (takeBytes 4 s.rdStream s.draws).2.1 ∧ t.draws = (takeBytes 4 s.rdStream s.draws).2.2 ∧
      SameValueStore s t ∧ SameVerdict s t ∧ SameInstance s t ∧ t.wrAnswers = s.wrAnswers

/-- A packet that the transport brings whole, of any declared length from 4 on, with either continuation flag, on any
channel: it is held; the first `MAX_PAYLOAD` payload bytes are in `BUF` and no other byte of it changed; all declared bytes
were taken, in `1 + ceil(n / T_MAX)` reads, the header's and those of R116 (41_framer_rx.md R110, R112, R115, R116, R117, R118, R122, R124, R126). -/
def Obligations.RecvHoldsAWholePacket : Prop :=
  ∀ (s : State) (h0 h1 h2 h3 : Byte) (payload : List Byte) (rest : List StreamItem),
    s.cfg.WellFormed → s.rdStream = ([h0, h1, h2, h3] ++ payload).map .byte ++ rest →
    h0.toNat + 256 * (h1.toNat % 128) = payload.length + 4 →
    ∃ t, exec .recv s = .next t ∧ t.res = .ok ∧ t.cause = .cNone ∧ t.rdata = 0 ∧
      t.rxvalid = true ∧ t.rxfsm = .complete ∧ t.rxhdr = ⟨h0, h1, h2, h3⟩ ∧ t.rxchan = h2 ∧ t.rxseq = h3 ∧
      t.rxlen.toNat = payload.length ∧ t.rxcnt.toNat = min payload.length 270 ∧
      (t.trunc = true ↔ 270 < payload.length) ∧
      (∀ a, a < min payload.length 270 → payload[a]? = some (t.readByte a)) ∧
      (∀ a, min payload.length 270 ≤ a → t.readByte a = s.readByte a) ∧
      t.rdStream = rest ∧ t.draws = s.draws ∧
      t.trace = s.trace ++ .read 4 (.bytes [h0, h1, h2, h3]) :: payloadReads s.cfg.tMax payload ∧
      t.trace.length = s.trace.length + (1 + (payload.length + s.cfg.tMax - 1) / s.cfg.tMax) ∧
      (∀ c, t.seqRead c = s.seqRead c) ∧ SameValueStore s t ∧ SameVerdict s t ∧ SameInstance s t ∧
      t.wrAnswers = s.wrAnswers

/-- A fault inside the payload, after `got` of its bytes: no packet is held, the header registers are the lost packet's, and
`BUF` has the whole chunks that came before the faulting request, which is the last one issued (41_framer_rx.md R115, R116,
R120). That the bytes the faulting
request itself took from the stream are lost is the model's (log 4). -/
def Obligations.RecvWithAPayloadFaultKeepsTheChunksBefore : Prop :=
  ∀ (s : State) (h0 h1 h2 h3 : Byte) (n : Nat) (got : List Byte) (rest : List StreamItem),
    s.cfg.WellFormed → s.rdStream = ([h0, h1, h2, h3] ++ got).map .byte ++ .fault :: rest →
    h0.toNat + 256 * (h1.toNat % 128) = n + 4 → got.length < n →
    ∃ t, exec .recv s = .next t ∧ t.res = .fault ∧ t.cause = .tfaultPay ∧ t.rdata = 0 ∧
      t.rxfsm = .timedOut ∧ t.rxvalid = false ∧ t.trunc = false ∧ t.rxcnt = 0 ∧
      t.rxhdr = ⟨h0, h1, h2, h3⟩ ∧ t.rxchan = h2 ∧ t.rxseq = h3 ∧ t.rxlen.toNat = n ∧
      (∀ a, a < min (got.length / s.cfg.tMax * s.cfg.tMax) 270 → got[a]? = some (t.readByte a)) ∧
      (∀ a, min (got.length / s.cfg.tMax * s.cfg.tMax) 270 ≤ a → t.readByte a = s.readByte a) ∧
      t.trace = s.trace ++ .read 4 (.bytes [h0, h1, h2, h3]) ::
        (payloadReads s.cfg.tMax (got.take (got.length / s.cfg.tMax * s.cfg.tMax)) ++
          [.read (min (n - got.length / s.cfg.tMax * s.cfg.tMax) s.cfg.tMax) .fault]) ∧
      t.rdStream = rest ∧ t.draws = s.draws ∧ (∀ c, t.seqRead c = s.seqRead c) ∧ SameValueStore s t ∧
      SameVerdict s t ∧ SameInstance s t ∧ t.wrAnswers = s.wrAnswers

/-- The per-transaction limit is not visible when no read faults: two limits leave the same state but for the trace of
requests (41_framer_rx.md R116). -/
def Obligations.ChunkingLeavesNoTraceInTheState : Prop :=
  ∀ (s : State) (h0 h1 h2 h3 : Byte) (payload : List Byte) (rest : List StreamItem) (k1 k2 : Nat) (t1 t2 : State),
    4 ≤ k1 → 4 ≤ k2 → s.rdStream = ([h0, h1, h2, h3] ++ payload).map .byte ++ rest →
    h0.toNat + 256 * (h1.toNat % 128) ≤ payload.length + 4 →
    exec .recv { s with cfg := { s.cfg with tMax := k1 } } = .next t1 →
    exec .recv { s with cfg := { s.cfg with tMax := k2 } } = .next t2 →
    { t1 with cfg := s.cfg, trace := [] } = { t2 with cfg := s.cfg, trace := [] }

/-- The continuation flag has no effect on what `RECV` does: with it and without it the same state results, but for the flag
itself in `RXHDR` and in the header read of the trace (41_framer_rx.md R112, 30_encoding.md R72). -/
def Obligations.TheContinuationFlagIsIgnored : Prop :=
  ∀ (s : State) (h0 h1 h2 h3 : Byte) (rest : List StreamItem) (t1 t2 : State),
    exec .recv { s with rdStream := ([h0, h1, h2, h3]).map .byte ++ rest } = .next t1 →
    exec .recv { s with rdStream := ([h0, h1 ^^^ 0x80, h2, h3]).map .byte ++ rest } = .next t2 →
    t1.rxhdr = ⟨h0, h1, h2, h3⟩ ∧ t2.rxhdr = ⟨h0, h1 ^^^ 0x80, h2, h3⟩ ∧
    (∃ es, t1.trace = s.trace ++ .read 4 (.bytes [h0, h1, h2, h3]) :: es ∧
      t2.trace = s.trace ++ .read 4 (.bytes [h0, h1 ^^^ 0x80, h2, h3]) :: es) ∧
    { t1 with rxhdr := s.rxhdr, trace := [] } = { t2 with rxhdr := s.rxhdr, trace := [] }

/-- No outcome of `RECV` reads or writes a sequence counter (41_framer_rx.md R123). -/
def Obligations.RecvNeitherReadsNorWritesACounter : Prop :=
  ∀ (s t : State) (v : Vector Byte 6), exec .recv s = .next t →
    t.seq = s.seq ∧ exec .recv { s with seq := v } = .next { t with seq := v }

/-- What every `RECV` leaves alone, whatever its outcome: the counters, the Value Store, the verdict of the last `PARSE`,
every byte of `BUF` at or beyond `MAX_PAYLOAD`; and the held packet is dropped unless it returns `OK` (41_framer_rx.md R110,
R111, 20_memory.md R57). -/
def Obligations.RecvFrame : Prop :=
  ∀ s t : State, exec .recv s = .next t →
    (∀ c, t.seqRead c = s.seqRead c) ∧ SameValueStore s t ∧ SameVerdict s t ∧ SameInstance s t ∧
    t.wrAnswers = s.wrAnswers ∧ (∀ a, s.cfg.maxPayload ≤ a → t.readByte a = s.readByte a) ∧
    t.res ≠ .refused ∧ (t.res ≠ .ok → t.rxvalid = false ∧ t.trunc = false ∧ t.rxcnt = 0) ∧
    (t.res = .ok ↔ t.rxvalid = true) ∧ (t.rxvalid = true ↔ t.rxfsm = .complete)

/-! ### `PARSE` and the packet classes -/

/-- `PARSE` with no packet held decodes nothing (42_demux.md R131). -/
def Obligations.ParseWithoutAPacketReportsNone : Prop :=
  ∀ s : State, s.rxvalid = false → exec .parse s = .next (s.returningNone .none .noPacket)

/-- The classes with no decoder and the unrecognised channels are ignored: nothing but the verdict is written, by the class
itself and by `PARSE` of a packet held on such a channel (42_demux.md R132, R133, R142, R144). -/
def Obligations.UndecodedChannelsAreIgnored : Prop :=
  ∀ s : State,
    (∀ i ∈ [Instr.pktCmd, .pktExe, .pktWake], exec i s = .next (s.returningNone .ignored .noDecoder)) ∧
    exec .pktBadchan s = .next (s.returningNone .ignored .badChan) ∧
    (s.rxvalid = true → s.rxchan.toNat ∈ [0, 1, 4] →
      exec .parse s = .next (s.returningNone .ignored .noDecoder)) ∧
    (s.rxvalid = true → 6 ≤ s.rxchan.toNat → exec .parse s = .next (s.returningNone .ignored .badChan))

/-- The three Control-channel responses are recognised and routed: nothing but the verdict is written, by the class itself
and by `PARSE` of a held packet with that first byte (42_demux.md R134, R136, R137, R138). That the FRS read response arrives
on channel 2 is PRESUMED (log 21): R138 marks it as general knowledge. -/
def Obligations.ControlResponsesAreRouted : Prop :=
  ∀ s : State,
    ∀ p ∈ [(Instr.pktCtlProdid, PktClass.prodid, s.cfg.ridProductIdResponse),
           (Instr.pktCtlCmdresp, PktClass.cmdresp, s.cfg.ridCommandResponse),
           (Instr.pktCtlFrsresp, PktClass.frsresp, s.cfg.ridFrsReadResponse)],
      exec p.1 s = .next (s.returning p.2.1 p.2.2) ∧
      (s.cfg.WellFormed → s.rxvalid = true → s.rxchan = 2 → 1 ≤ s.rxcnt.toNat → s.readByte 0 = p.2.2 →
        exec .parse s = .next (s.returning p.2.1 p.2.2))

/-- The default rows of channels 2 and 3: an empty payload is malformed, any other first byte unknown; nothing but the
verdict is written (42_demux.md R135, R139, R141, 60_exceptions.md R231). -/
def Obligations.UnknownFirstBytesAreIgnored : Prop :=
  ∀ s : State,
    (∀ i ∈ [Instr.pktCtlOther, .pktRptOther],
      (s.rxcnt.toNat = 0 → exec i s = .next (s.returningNone .ignored .malformed)) ∧
      (1 ≤ s.rxcnt.toNat → exec i s = .next (s.returningNone .ignored .badRid))) ∧
    (s.rxvalid = true → s.rxchan = 2 ∨ s.rxchan = 3 → s.rxcnt.toNat = 0 →
      exec .parse s = .next (s.returningNone .ignored .malformed)) ∧
    (s.rxvalid = true → 1 ≤ s.rxcnt.toNat →
      (s.rxchan = 2 ∧ s.readByte 0 ∉ s.cfg.controlIds) ∨ (s.rxchan = 3 ∧ s.readByte 0 ≠ s.cfg.ridBaseTimestamp) →
      exec .parse s = .next (s.returningNone .ignored .badRid))

/-- Whenever `PARSE` reports that nothing was decoded or routed, no Value Store field has changed; whenever it reports
something, it returns a nonzero identifier (42_demux.md R145 (d), 30_encoding.md R91). -/
def Obligations.ParseThatReportsNothingLeavesTheValueStore : Prop :=
  ∀ s t : State, s.cfg.WellFormed → exec .parse s = .next t →
    (t.res = .none ∧ t.rdata = 0 ∧ t.lastRid = 0 ∧ SameValueStore s t) ∨
    (t.res = .ok ∧ t.rdata ≠ 0 ∧ t.rdata = t.lastRid.setWidth 32 ∧ t.cause = .cNone)

/-- `PARSE` does not consume the packet: a second one right after gives the same state (42_demux.md R145 (c)). -/
def Obligations.ParseTwiceIsParseOnce : Prop :=
  ∀ s t : State, exec .parse s = .next t → exec .parse t = .next t

/-- `PARSE` depends on `RXVALID`, `RXCHAN`, `RXCNT`, the bytes of the held packet and the configuration alone: two states
that agree on these, and hold the same Value Store before, report the same and hold the same Value Store after (42_demux.md
R145 (b), R146). -/
def Obligations.ParseDependsOnTheHeldPacketAlone : Prop :=
  ∀ s1 s2 t1 t2 : State,
    s2.rxvalid = s1.rxvalid → s2.rxchan = s1.rxchan → s2.rxcnt = s1.rxcnt → s2.cfg = s1.cfg →
    (∀ a, a < s1.rxcnt.toNat → s2.readByte a = s1.readByte a) → SameValueStore s1 s2 →
    exec .parse s1 = .next t1 → exec .parse s2 = .next t2 →
    t2.res = t1.res ∧ t2.rdata = t1.rdata ∧ t2.cause = t1.cause ∧ SameVerdict t1 t2 ∧ SameValueStore t1 t2

/-! ### Sensor reports -/

/-- The seven three-component types: the slot takes `W1 W2 W3`, the status bits and the timestamp, and nothing else but the
verdict is written; by the type itself and by the base-timestamp class when the embedded report ID is the type's
(43_report_decode.md R152, R153, R154 to R157, R165 to R167). -/
def Obligations.ThreeComponentReportsFillTheirSlot : Prop :=
  ∀ s : State, 13 ≤ s.rxcnt.toNat →
    ∀ p ∈ [(Instr.rptAcc, s.cfg.ridAcc, { s.returning .sensor s.cfg.ridAcc with acc := s.vecBytes }),
           (Instr.rptLin, s.cfg.ridLin, { s.returning .sensor s.cfg.ridLin with lin := s.vecBytes }),
           (Instr.rptGyr, s.cfg.ridGyr, { s.returning .sensor s.cfg.ridGyr with gyr := s.vecBytes }),
           (Instr.rptMag, s.cfg.ridMag, { s.returning .sensor s.cfg.ridMag with mag := s.vecBytes }),
           (Instr.rptRawacc, s.cfg.ridRawacc, { s.returning .sensor s.cfg.ridRawacc with rawacc := s.vecBytes }),
           (Instr.rptRawgyr, s.cfg.ridRawgyr, { s.returning .sensor s.cfg.ridRawgyr with rawgyr := s.vecBytes }),
           (Instr.rptRawmag, s.cfg.ridRawmag, { s.returning .sensor s.cfg.ridRawmag with rawmag := s.vecBytes })],
      exec p.1 s = .next p.2.2 ∧
      (s.cfg.WellFormed → s.readByte 5 = p.2.1 → exec .pktRptBasets s = .next p.2.2)

/-- The four rotation-vector types fill the one slot `QUAT` from `W1`..`W5`, and nothing else but the verdict is written; by
the type itself and by the base-timestamp class when the embedded report ID is the type's (43_report_decode.md R152, R153,
R158 to R161). -/
def Obligations.RotationVectorReportsFillQuat : Prop :=
  ∀ s : State, 13 ≤ s.rxcnt.toNat →
    ∀ p ∈ [(Instr.rptRv, s.cfg.ridRv), (Instr.rptRvv1, s.cfg.ridRvv1), (Instr.rptRvv2, s.cfg.ridRvv2),
           (Instr.rptRvv3, s.cfg.ridRvv3)],
      exec p.1 s = .next { s.returning .sensor p.2 with quat := s.quatBytes } ∧
      (s.cfg.WellFormed → s.readByte 5 = p.2 →
        exec .pktRptBasets s = .next { s.returning .sensor p.2 with quat := s.quatBytes })

/-- The three scalar types: the slot takes the selected part of the selected word, and nothing else but the verdict is
written; by the type itself and by the base-timestamp class when the embedded report ID is the type's
(43_report_decode.md R162, R163, R164, R171). -/
def Obligations.ScalarReportsFillTheirSlot : Prop :=
  ∀ s : State, s.cfg.WellFormed → 13 ≤ s.rxcnt.toNat →
    ∀ p ∈ [(Instr.rptStep, s.cfg.ridStep,
             { s.returning .sensor s.cfg.ridStep with stepCnt := s.scalarBytes s.cfg.scalStep }),
           (Instr.rptStab, s.cfg.ridStab,
             { s.returning .sensor s.cfg.ridStab with stab := s.scalarBytes s.cfg.scalStab }),
           (Instr.rptAct, s.cfg.ridAct,
             { s.returning .sensor s.cfg.ridAct with act := s.scalarBytes s.cfg.scalAct })],
      exec p.1 s = .next p.2.2 ∧ (s.readByte 5 = p.2.1 → exec .pktRptBasets s = .next p.2.2)

/-- The base-timestamp class: with one of the fourteen identifiers it returns that identifier; with any other no slot
changes and the cause is `C_BADRID` (42_demux.md R140, 30_encoding.md R80, 43_report_decode.md R168); with fewer than two
data words it is malformed whatever the identifier (R151, 60_exceptions.md R231). -/
def Obligations.SensorPacketsReturnTheirReportId : Prop :=
  ∀ s : State,
    (13 ≤ s.rxcnt.toNat → s.readByte 5 ∈ s.cfg.sensorIds → ∃ t, exec .pktRptBasets s = .next t ∧
      t.res = .ok ∧ t.cause = .cNone ∧ t.rdata.toNat = (s.readByte 5).toNat ∧ t.lastRid = s.readByte 5 ∧
      t.lastCls = .sensor ∧ t.fgyr = s.fgyr ∧ SameBuf s t ∧ SamePacket s t) ∧
    (13 ≤ s.rxcnt.toNat → s.readByte 5 ∉ s.cfg.sensorIds →
      exec .pktRptBasets s = .next (s.returningNone .sensor .badRid)) ∧
    (13 ≤ s.rxcnt.toNat → exec .rptOther s = .next (s.returningNone .sensor .badRid)) ∧
    (s.rxcnt.toNat < 13 → exec .pktRptBasets s = .next (s.returningNone .sensor .malformed))

/-- The source's test property for the Reports channel: a held packet with the marker, the accelerometer's identifier and
the three words makes `PARSE` fill slot `ACC` with the little-endian words and the low 2 status bits, and return the
identifier (43_report_decode.md R154, 42_demux.md R130, R140). -/
def Obligations.ParseOfAnAccelerometerPacketFillsAcc : Prop :=
  ∀ s : State, s.rxvalid = true → s.rxchan = 3 → 15 ≤ s.rxcnt.toNat →
    s.readByte 0 = s.cfg.ridBaseTimestamp → s.readByte 5 = s.cfg.ridAcc →
    exec .parse s = .next
      { s.returning .sensor s.cfg.ridAcc with
        acc := ⟨s.readByte 10 ++ s.readByte 9, s.readByte 12 ++ s.readByte 11, s.readByte 14 ++ s.readByte 13,
                (s.readByte 7).extractLsb' 0 2,
                s.readByte 4 ++ s.readByte 3 ++ s.readByte 2 ++ s.readByte 1⟩ }

/-- A Gyro-channel packet of 14 bytes or more writes the four quaternion components and `FGYR` from its seven words, and
leaves `QUAT.RADACC`, `QUAT.ACCY`, `QUAT.TS`; a shorter one writes nothing; by the class itself and by `PARSE` of a packet
held on that channel (43_report_decode.md R169, R170, 42_demux.md R143). -/
def Obligations.GyroPacketsFillQuatAndFgyr : Prop :=
  ∀ (s : State) (i : Instr), i = .pktGyro ∨ (i = .parse ∧ s.rxvalid = true ∧ s.rxchan = 5) →
    (14 ≤ s.rxcnt.toNat → exec i s = .next
      { s.returning .gyro s.cfg.ridGirv with
        quat := ⟨s.wordAt 0, s.wordAt 2, s.wordAt 4, s.wordAt 6, s.quat.radacc, s.quat.accy, s.quat.ts⟩
        fgyr := ⟨s.wordAt 8, s.wordAt 10, s.wordAt 12⟩ }) ∧
    (s.rxcnt.toNat < 14 → exec i s = .next (s.returningNone .gyro .malformed))

/-! ### Q-format conversion and the accessors -/

/-- `CVT` is exact: for every raw value and every `q` up to 149 it answers a finite binary32 pattern whose value is
`s16(raw) / 2^q` (44_qformat.md R180, R182, R183, R186). Two's complement and binary32 are inferences the
spec marks as its own (log 10). -/
def Obligations.ConversionIsExact : Prop :=
  ∀ (s : State) (raw : Half) (q : Byte), q.toNat ≤ 149 →
    ∃ w, exec (.cvt raw q) s = .next { s with cause := .cNone, res := .ok, rdata := w } ∧
      f32value w = (s16 raw : Rat) / (2 : Rat) ^ q.toNat ∧ (w.toNat >>> 23) &&& 0xFF ≠ 0xFF

/-- A zero raw value converts to positive zero for every `q`, and a nonzero one is refused from `q = 150` on (44_qformat.md
R184, R185). -/
def Obligations.ConversionAtZeroAndBeyond149 : Prop :=
  ∀ (s : State) (raw : Half) (q : Byte),
    (s16 raw = 0 → exec (.cvt raw q) s = .next { s with cause := .cNone, res := .ok, rdata := 0x00000000 }) ∧
    (s16 raw ≠ 0 → 150 ≤ q.toNat →
      exec (.cvt raw q) s = .next { s with cause := .refused, res := .refused, rdata := 0 })

/-- `GETR` of a cell of R90 answers the stored pattern zero-extended; any other select is refused (44_qformat.md R187,
30_encoding.md R90). -/
def Obligations.GetrReturnsTheStoredPattern : Prop :=
  ∀ s : State,
    (∀ r ∈ s.cellTable, exec (.getr r.1 r.2.1) s =
      .next { s with cause := .cNone, res := .ok, rdata := BitVec.ofNat 32 r.2.2.toNat }) ∧
    (∀ slot comp : Byte, (∀ r ∈ s.cellTable, ¬ (r.1 = slot ∧ r.2.1 = comp)) → exec (.getr slot comp) s =
      .next { s with cause := .refused, res := .refused, rdata := 0 })

/-- `GETF` of a cell with a Q-point answers what `CVT` of the stored pattern with that Q-point answers; any other select is
refused (44_qformat.md R188, R189). -/
def Obligations.GetfIsCvtOfTheStoredPattern : Prop :=
  ∀ s : State, s.cfg.WellFormed →
    (∀ r ∈ s.convertibleTable, ∃ w, exec (.getf r.1 r.2.1) s =
        .next { s with cause := .cNone, res := .ok, rdata := w } ∧
      exec (.cvt r.2.2.1 r.2.2.2) s = .next { s with cause := .cNone, res := .ok, rdata := w }) ∧
    (∀ slot comp : Byte, (∀ r ∈ s.convertibleTable, ¬ (r.1 = slot ∧ r.2.1 = comp)) →
      exec (.getf slot comp) s = .next { s with cause := .refused, res := .refused, rdata := 0 })

/-- `GETA` and `GETT` answer a slot's accuracy and timestamp; `FGYR` and a slot above 11 are refused (44_qformat.md R190,
R191). -/
def Obligations.GetaAndGettReturnTheStamp : Prop :=
  ∀ s : State,
    (∀ r ∈ s.stampTable,
      exec (.geta r.1) s = .next { s with cause := .cNone, res := .ok, rdata := BitVec.ofNat 32 r.2.1.toNat } ∧
      exec (.gett r.1) s = .next { s with cause := .cNone, res := .ok, rdata := r.2.2 }) ∧
    (∀ slot : Byte, slot = 5 ∨ 11 < slot.toNat →
      exec (.geta slot) s = .next { s with cause := .refused, res := .refused, rdata := 0 } ∧
      exec (.gett slot) s = .next { s with cause := .refused, res := .refused, rdata := 0 })

/-- The read operations change nothing but `CAUSE` (and the result ports), and asked again they answer the same
(44_qformat.md R192, 45_host_access.md R200, R202). -/
def Obligations.ReadsChangeOnlyTheCause : Prop :=
  ∀ (s t u : State) (i : Instr),
    (∃ raw q, i = .cvt raw q) ∨ (∃ a b, i = .getr a b) ∨ (∃ a b, i = .getf a b) ∨ (∃ a, i = .geta a) ∨
      (∃ a, i = .gett a) ∨ (∃ a, i = .ldb a) ∨ (∃ a, i = .rdsr a ∧ a ≠ 0x15) →
    exec i s = .next t → exec i t = .next u →
    { t with cause := s.cause, res := s.res, rdata := s.rdata } = s ∧ u = t

/-! ### Host access -/

/-- `LDB` answers the byte at the address, zero-extended, whatever is held; beyond the buffer it is refused (45_host_access.md
R200). -/
def Obligations.LdbReturnsTheByte : Prop :=
  ∀ (s : State) (addr : Half),
    (addr.toNat < s.cfg.maxPayload → exec (.ldb addr) s =
      .next { s with cause := .cNone, res := .ok, rdata := BitVec.ofNat 32 (s.readByte addr.toNat).toNat }) ∧
    (s.cfg.maxPayload ≤ addr.toNat → exec (.ldb addr) s =
      .next { s with cause := .refused, res := .refused, rdata := 0 })

/-- `STB` stores one byte: it reads back, every other byte and everything but `CAUSE` and the result ports is as before;
beyond the buffer it is refused and `BUF` unchanged (45_host_access.md R201, 20_memory.md R64). -/
def Obligations.StbStoresOneByte : Prop :=
  ∀ (s : State) (addr : Half) (b : Byte),
    (addr.toNat < s.cfg.maxPayload → ∃ t, exec (.stb addr b) s = .next t ∧ t.readByte addr.toNat = b ∧
      (∀ a, a ≠ addr.toNat → t.readByte a = s.readByte a) ∧ t.cause = .cNone ∧ t.res = .ok ∧ t.rdata = 0 ∧
      { t with buf := s.buf, cause := s.cause, res := s.res, rdata := s.rdata } = s) ∧
    (s.cfg.maxPayload ≤ addr.toNat → exec (.stb addr b) s =
      .next { s with cause := .refused, res := .refused, rdata := 0 })

/-- `RDSR` answers the register of its row of 10_state.md R46 as it was before, zero-extended; any other select is refused
(45_host_access.md R202). -/
def Obligations.RdsrReturnsTheStatusRegister : Prop :=
  ∀ s : State,
    (∀ r ∈ s.statusTable, exec (.rdsr r.1) s =
      .next { s with cause := .cNone, res := .ok, rdata := BitVec.ofNat 32 r.2 }) ∧
    (∀ sel : Byte, (∀ r ∈ s.statusTable, r.1 ≠ sel) → exec (.rdsr sel) s =
      .next { s with cause := .refused, res := .refused, rdata := 0 })

/-- Two `RDSR CAUSE` in a row answer the cause of the operation before, then `C_NONE` (45_host_access.md R202). -/
def Obligations.RdsrCauseTwiceAnswersTheCauseThenNone : Prop :=
  ∀ s t : State, exec (.rdsr 0x15) s = .next t →
    t.rdata.toNat = s.cause.code.toNat ∧ ∃ u, exec (.rdsr 0x15) t = .next u ∧ u.res = .ok ∧ u.rdata = 0

/-- `POLL` is `RECV`, then `PARSE` exactly when the `RECV` returned `OK`; otherwise it ends as the `RECV` did, with
`RDATA = 0` (45_host_access.md R204). -/
def Obligations.PollIsRecvThenParse : Prop :=
  ∀ s t : State, exec .recv s = .next t →
    (t.res = .ok → poll s = exec .parse t) ∧ (t.res ≠ .ok → poll s = .next t ∧ t.rdata = 0)
end

