-- ==== Sys2Proof/Laws/Encoding.lean ====
section
/-! SUPPORT. The bytes of a decode word (30_encoding.md R70, R76), read back from the word they make. -/

namespace Sys2Proof

/-- Bits 23:16 of a five-byte word are its third byte (R76: the channel). -/
theorem extract_channel (first sq ch b1 b0 : Byte) : (first ++ sq ++ ch ++ b1 ++ b0).extractLsb' 16 8 = ch := by
  refine BitVec.eq_of_getLsbD_eq fun i hi => ?_
  have h1 : ¬ 16 + i < 8 := by omega
  have h2 : ¬ 16 + i - 8 < 8 := by omega
  have h4 : 16 + i - 8 - 8 = i := by omega
  simp only [BitVec.getLsbD_extractLsb', BitVec.getLsbD_append, hi, h1, h2, h4, decide_true, Bool.true_and,
    if_true, if_false]

/-- Bits 39:32 of a five-byte word are its fifth byte (R76: the first payload byte). -/
theorem extract_first (first sq ch b1 b0 : Byte) : (first ++ sq ++ ch ++ b1 ++ b0).extractLsb' 32 8 = first := by
  refine BitVec.eq_of_getLsbD_eq fun i hi => ?_
  have h1 : ¬ 32 + i < 8 := by omega
  have h2 : ¬ 32 + i - 8 < 8 := by omega
  have h3 : ¬ 32 + i - 8 - 8 < 8 := by omega
  have h4 : ¬ 32 + i - 8 - 8 - 8 < 8 := by omega
  have h5 : 32 + i - 8 - 8 - 8 - 8 = i := by omega
  simp only [BitVec.getLsbD_extractLsb', BitVec.getLsbD_append, hi, h1, h2, h3, h4, h5, decide_true, Bool.true_and,
    if_false]

/-- The channel byte of a decode word made of the first payload byte and a header (R76). -/
theorem extract_header_channel (first : Byte) (h : Header) : (first ++ h.word).extractLsb' 16 8 = h.b2 := by
  refine BitVec.eq_of_getLsbD_eq fun i hi => ?_
  have h0 : 16 + i < 32 := by omega
  have h1 : ¬ 16 + i < 8 := by omega
  have h2 : ¬ 16 + i - 8 < 8 := by omega
  have h4 : 16 + i - 8 - 8 = i := by omega
  unfold Header.word
  simp only [BitVec.getLsbD_extractLsb', BitVec.getLsbD_append, hi, h0, h1, h2, h4, decide_true, Bool.true_and,
    if_true, if_false]

/-- The first payload byte of a decode word made of it and a header (R76). -/
theorem extract_header_first (first : Byte) (h : Header) : (first ++ h.word).extractLsb' 32 8 = first := by
  refine BitVec.eq_of_getLsbD_eq fun i hi => ?_
  have h0 : ¬ 32 + i < 32 := by omega
  have h1 : 32 + i - 32 = i := by omega
  simp only [BitVec.getLsbD_extractLsb', BitVec.getLsbD_append, hi, h0, h1, decide_true, Bool.true_and, if_false]

/-- What the demux reads from a packet word the encoder wrote. -/
theorem decode_packetWord_some (cfg : Config) (ch b : Byte) :
    decode cfg (packetWord ch (some b)) = .ok (decodePacket cfg ch (some b)).instr := by
  simp only [decode, packetWord, decodePacketWord, extract_channel, extract_first, Nat.le_refl, if_true]

/-- The same for a packet without payload. -/
theorem decode_packetWord_none (cfg : Config) (ch : Byte) :
    decode cfg (packetWord ch none) = .ok (decodePacket cfg ch none).instr := by
  simp only [decode, packetWord, decodePacketWord, extract_channel]
  rfl

end Sys2Proof
end

