-- ==== Sys2Proof/Laws/State.lean ====
section
/-! SUPPORT. What each named update of `State` does to each field: one lemma per field per update, true by `rfl`. -/

namespace Sys2Proof.Machine

open Sys2Proof

/-! ### `State.begin` -/

@[simp] theorem State.begin_seq (s : State) : (s.begin).seq = s.seq := rfl
@[simp] theorem State.begin_rxhdr (s : State) : (s.begin).rxhdr = s.rxhdr := rfl
@[simp] theorem State.begin_rxchan (s : State) : (s.begin).rxchan = s.rxchan := rfl
@[simp] theorem State.begin_rxseq (s : State) : (s.begin).rxseq = s.rxseq := rfl
@[simp] theorem State.begin_rxlen (s : State) : (s.begin).rxlen = s.rxlen := rfl
@[simp] theorem State.begin_rxcnt (s : State) : (s.begin).rxcnt = s.rxcnt := rfl
@[simp] theorem State.begin_rxfsm (s : State) : (s.begin).rxfsm = s.rxfsm := rfl
@[simp] theorem State.begin_rxvalid (s : State) : (s.begin).rxvalid = s.rxvalid := rfl
@[simp] theorem State.begin_trunc (s : State) : (s.begin).trunc = s.trunc := rfl
@[simp] theorem State.begin_cause (s : State) : (s.begin).cause = .cNone := rfl
@[simp] theorem State.begin_lastCls (s : State) : (s.begin).lastCls = s.lastCls := rfl
@[simp] theorem State.begin_lastRid (s : State) : (s.begin).lastRid = s.lastRid := rfl
@[simp] theorem State.begin_acc (s : State) : (s.begin).acc = s.acc := rfl
@[simp] theorem State.begin_lin (s : State) : (s.begin).lin = s.lin := rfl
@[simp] theorem State.begin_gyr (s : State) : (s.begin).gyr = s.gyr := rfl
@[simp] theorem State.begin_mag (s : State) : (s.begin).mag = s.mag := rfl
@[simp] theorem State.begin_quat (s : State) : (s.begin).quat = s.quat := rfl
@[simp] theorem State.begin_fgyr (s : State) : (s.begin).fgyr = s.fgyr := rfl
@[simp] theorem State.begin_rawacc (s : State) : (s.begin).rawacc = s.rawacc := rfl
@[simp] theorem State.begin_rawgyr (s : State) : (s.begin).rawgyr = s.rawgyr := rfl
@[simp] theorem State.begin_rawmag (s : State) : (s.begin).rawmag = s.rawmag := rfl
@[simp] theorem State.begin_stepCnt (s : State) : (s.begin).stepCnt = s.stepCnt := rfl
@[simp] theorem State.begin_stab (s : State) : (s.begin).stab = s.stab := rfl
@[simp] theorem State.begin_act (s : State) : (s.begin).act = s.act := rfl
@[simp] theorem State.begin_buf (s : State) : (s.begin).buf = s.buf := rfl
@[simp] theorem State.begin_res (s : State) : (s.begin).res = s.res := rfl
@[simp] theorem State.begin_rdata (s : State) : (s.begin).rdata = s.rdata := rfl
@[simp] theorem State.begin_inputs (s : State) : (s.begin).inputs = s.inputs := rfl
@[simp] theorem State.begin_rdStream (s : State) : (s.begin).rdStream = s.rdStream := rfl
@[simp] theorem State.begin_wrAnswers (s : State) : (s.begin).wrAnswers = s.wrAnswers := rfl
@[simp] theorem State.begin_draws (s : State) : (s.begin).draws = s.draws := rfl
@[simp] theorem State.begin_trace (s : State) : (s.begin).trace = s.trace := rfl
@[simp] theorem State.begin_cfg (s : State) : (s.begin).cfg = s.cfg := rfl
@[simp] theorem State.begin_epoch (s : State) : (s.begin).epoch = s.epoch := rfl

/-! ### `State.ret` -/

@[simp] theorem State.ret_seq (d : Word) (s : State) : (s.ret d).seq = s.seq := rfl
@[simp] theorem State.ret_rxhdr (d : Word) (s : State) : (s.ret d).rxhdr = s.rxhdr := rfl
@[simp] theorem State.ret_rxchan (d : Word) (s : State) : (s.ret d).rxchan = s.rxchan := rfl
@[simp] theorem State.ret_rxseq (d : Word) (s : State) : (s.ret d).rxseq = s.rxseq := rfl
@[simp] theorem State.ret_rxlen (d : Word) (s : State) : (s.ret d).rxlen = s.rxlen := rfl
@[simp] theorem State.ret_rxcnt (d : Word) (s : State) : (s.ret d).rxcnt = s.rxcnt := rfl
@[simp] theorem State.ret_rxfsm (d : Word) (s : State) : (s.ret d).rxfsm = s.rxfsm := rfl
@[simp] theorem State.ret_rxvalid (d : Word) (s : State) : (s.ret d).rxvalid = s.rxvalid := rfl
@[simp] theorem State.ret_trunc (d : Word) (s : State) : (s.ret d).trunc = s.trunc := rfl
@[simp] theorem State.ret_cause (d : Word) (s : State) : (s.ret d).cause = s.cause := rfl
@[simp] theorem State.ret_lastCls (d : Word) (s : State) : (s.ret d).lastCls = s.lastCls := rfl
@[simp] theorem State.ret_lastRid (d : Word) (s : State) : (s.ret d).lastRid = s.lastRid := rfl
@[simp] theorem State.ret_acc (d : Word) (s : State) : (s.ret d).acc = s.acc := rfl
@[simp] theorem State.ret_lin (d : Word) (s : State) : (s.ret d).lin = s.lin := rfl
@[simp] theorem State.ret_gyr (d : Word) (s : State) : (s.ret d).gyr = s.gyr := rfl
@[simp] theorem State.ret_mag (d : Word) (s : State) : (s.ret d).mag = s.mag := rfl
@[simp] theorem State.ret_quat (d : Word) (s : State) : (s.ret d).quat = s.quat := rfl
@[simp] theorem State.ret_fgyr (d : Word) (s : State) : (s.ret d).fgyr = s.fgyr := rfl
@[simp] theorem State.ret_rawacc (d : Word) (s : State) : (s.ret d).rawacc = s.rawacc := rfl
@[simp] theorem State.ret_rawgyr (d : Word) (s : State) : (s.ret d).rawgyr = s.rawgyr := rfl
@[simp] theorem State.ret_rawmag (d : Word) (s : State) : (s.ret d).rawmag = s.rawmag := rfl
@[simp] theorem State.ret_stepCnt (d : Word) (s : State) : (s.ret d).stepCnt = s.stepCnt := rfl
@[simp] theorem State.ret_stab (d : Word) (s : State) : (s.ret d).stab = s.stab := rfl
@[simp] theorem State.ret_act (d : Word) (s : State) : (s.ret d).act = s.act := rfl
@[simp] theorem State.ret_buf (d : Word) (s : State) : (s.ret d).buf = s.buf := rfl
@[simp] theorem State.ret_res (d : Word) (s : State) : (s.ret d).res = .ok := rfl
@[simp] theorem State.ret_rdata (d : Word) (s : State) : (s.ret d).rdata = d := rfl
@[simp] theorem State.ret_inputs (d : Word) (s : State) : (s.ret d).inputs = s.inputs := rfl
@[simp] theorem State.ret_rdStream (d : Word) (s : State) : (s.ret d).rdStream = s.rdStream := rfl
@[simp] theorem State.ret_wrAnswers (d : Word) (s : State) : (s.ret d).wrAnswers = s.wrAnswers := rfl
@[simp] theorem State.ret_draws (d : Word) (s : State) : (s.ret d).draws = s.draws := rfl
@[simp] theorem State.ret_trace (d : Word) (s : State) : (s.ret d).trace = s.trace := rfl
@[simp] theorem State.ret_cfg (d : Word) (s : State) : (s.ret d).cfg = s.cfg := rfl
@[simp] theorem State.ret_epoch (d : Word) (s : State) : (s.ret d).epoch = s.epoch := rfl

/-! ### `State.raise` -/

@[simp] theorem State.raise_seq (c : Cause) (r : Res) (s : State) : (s.raise c r).seq = s.seq := rfl
@[simp] theorem State.raise_rxhdr (c : Cause) (r : Res) (s : State) : (s.raise c r).rxhdr = s.rxhdr := rfl
@[simp] theorem State.raise_rxchan (c : Cause) (r : Res) (s : State) : (s.raise c r).rxchan = s.rxchan := rfl
@[simp] theorem State.raise_rxseq (c : Cause) (r : Res) (s : State) : (s.raise c r).rxseq = s.rxseq := rfl
@[simp] theorem State.raise_rxlen (c : Cause) (r : Res) (s : State) : (s.raise c r).rxlen = s.rxlen := rfl
@[simp] theorem State.raise_rxcnt (c : Cause) (r : Res) (s : State) : (s.raise c r).rxcnt = s.rxcnt := rfl
@[simp] theorem State.raise_rxfsm (c : Cause) (r : Res) (s : State) : (s.raise c r).rxfsm = s.rxfsm := rfl
@[simp] theorem State.raise_rxvalid (c : Cause) (r : Res) (s : State) : (s.raise c r).rxvalid = s.rxvalid := rfl
@[simp] theorem State.raise_trunc (c : Cause) (r : Res) (s : State) : (s.raise c r).trunc = s.trunc := rfl
@[simp] theorem State.raise_cause (c : Cause) (r : Res) (s : State) : (s.raise c r).cause = c := rfl
@[simp] theorem State.raise_lastCls (c : Cause) (r : Res) (s : State) : (s.raise c r).lastCls = s.lastCls := rfl
@[simp] theorem State.raise_lastRid (c : Cause) (r : Res) (s : State) : (s.raise c r).lastRid = s.lastRid := rfl
@[simp] theorem State.raise_acc (c : Cause) (r : Res) (s : State) : (s.raise c r).acc = s.acc := rfl
@[simp] theorem State.raise_lin (c : Cause) (r : Res) (s : State) : (s.raise c r).lin = s.lin := rfl
@[simp] theorem State.raise_gyr (c : Cause) (r : Res) (s : State) : (s.raise c r).gyr = s.gyr := rfl
@[simp] theorem State.raise_mag (c : Cause) (r : Res) (s : State) : (s.raise c r).mag = s.mag := rfl
@[simp] theorem State.raise_quat (c : Cause) (r : Res) (s : State) : (s.raise c r).quat = s.quat := rfl
@[simp] theorem State.raise_fgyr (c : Cause) (r : Res) (s : State) : (s.raise c r).fgyr = s.fgyr := rfl
@[simp] theorem State.raise_rawacc (c : Cause) (r : Res) (s : State) : (s.raise c r).rawacc = s.rawacc := rfl
@[simp] theorem State.raise_rawgyr (c : Cause) (r : Res) (s : State) : (s.raise c r).rawgyr = s.rawgyr := rfl
@[simp] theorem State.raise_rawmag (c : Cause) (r : Res) (s : State) : (s.raise c r).rawmag = s.rawmag := rfl
@[simp] theorem State.raise_stepCnt (c : Cause) (r : Res) (s : State) : (s.raise c r).stepCnt = s.stepCnt := rfl
@[simp] theorem State.raise_stab (c : Cause) (r : Res) (s : State) : (s.raise c r).stab = s.stab := rfl
@[simp] theorem State.raise_act (c : Cause) (r : Res) (s : State) : (s.raise c r).act = s.act := rfl
@[simp] theorem State.raise_buf (c : Cause) (r : Res) (s : State) : (s.raise c r).buf = s.buf := rfl
@[simp] theorem State.raise_res (c : Cause) (r : Res) (s : State) : (s.raise c r).res = r := rfl
@[simp] theorem State.raise_rdata (c : Cause) (r : Res) (s : State) : (s.raise c r).rdata = 0 := rfl
@[simp] theorem State.raise_inputs (c : Cause) (r : Res) (s : State) : (s.raise c r).inputs = s.inputs := rfl
@[simp] theorem State.raise_rdStream (c : Cause) (r : Res) (s : State) : (s.raise c r).rdStream = s.rdStream := rfl
@[simp] theorem State.raise_wrAnswers (c : Cause) (r : Res) (s : State) : (s.raise c r).wrAnswers = s.wrAnswers := rfl
@[simp] theorem State.raise_draws (c : Cause) (r : Res) (s : State) : (s.raise c r).draws = s.draws := rfl
@[simp] theorem State.raise_trace (c : Cause) (r : Res) (s : State) : (s.raise c r).trace = s.trace := rfl
@[simp] theorem State.raise_cfg (c : Cause) (r : Res) (s : State) : (s.raise c r).cfg = s.cfg := rfl
@[simp] theorem State.raise_epoch (c : Cause) (r : Res) (s : State) : (s.raise c r).epoch = s.epoch := rfl

/-! ### `State.dropPacket` -/

@[simp] theorem State.dropPacket_seq (s : State) : (s.dropPacket).seq = s.seq := rfl
@[simp] theorem State.dropPacket_rxhdr (s : State) : (s.dropPacket).rxhdr = s.rxhdr := rfl
@[simp] theorem State.dropPacket_rxchan (s : State) : (s.dropPacket).rxchan = s.rxchan := rfl
@[simp] theorem State.dropPacket_rxseq (s : State) : (s.dropPacket).rxseq = s.rxseq := rfl
@[simp] theorem State.dropPacket_rxlen (s : State) : (s.dropPacket).rxlen = s.rxlen := rfl
@[simp] theorem State.dropPacket_rxcnt (s : State) : (s.dropPacket).rxcnt = 0 := rfl
@[simp] theorem State.dropPacket_rxfsm (s : State) : (s.dropPacket).rxfsm = s.rxfsm := rfl
@[simp] theorem State.dropPacket_rxvalid (s : State) : (s.dropPacket).rxvalid = false := rfl
@[simp] theorem State.dropPacket_trunc (s : State) : (s.dropPacket).trunc = false := rfl
@[simp] theorem State.dropPacket_cause (s : State) : (s.dropPacket).cause = s.cause := rfl
@[simp] theorem State.dropPacket_lastCls (s : State) : (s.dropPacket).lastCls = s.lastCls := rfl
@[simp] theorem State.dropPacket_lastRid (s : State) : (s.dropPacket).lastRid = s.lastRid := rfl
@[simp] theorem State.dropPacket_acc (s : State) : (s.dropPacket).acc = s.acc := rfl
@[simp] theorem State.dropPacket_lin (s : State) : (s.dropPacket).lin = s.lin := rfl
@[simp] theorem State.dropPacket_gyr (s : State) : (s.dropPacket).gyr = s.gyr := rfl
@[simp] theorem State.dropPacket_mag (s : State) : (s.dropPacket).mag = s.mag := rfl
@[simp] theorem State.dropPacket_quat (s : State) : (s.dropPacket).quat = s.quat := rfl
@[simp] theorem State.dropPacket_fgyr (s : State) : (s.dropPacket).fgyr = s.fgyr := rfl
@[simp] theorem State.dropPacket_rawacc (s : State) : (s.dropPacket).rawacc = s.rawacc := rfl
@[simp] theorem State.dropPacket_rawgyr (s : State) : (s.dropPacket).rawgyr = s.rawgyr := rfl
@[simp] theorem State.dropPacket_rawmag (s : State) : (s.dropPacket).rawmag = s.rawmag := rfl
@[simp] theorem State.dropPacket_stepCnt (s : State) : (s.dropPacket).stepCnt = s.stepCnt := rfl
@[simp] theorem State.dropPacket_stab (s : State) : (s.dropPacket).stab = s.stab := rfl
@[simp] theorem State.dropPacket_act (s : State) : (s.dropPacket).act = s.act := rfl
@[simp] theorem State.dropPacket_buf (s : State) : (s.dropPacket).buf = s.buf := rfl
@[simp] theorem State.dropPacket_res (s : State) : (s.dropPacket).res = s.res := rfl
@[simp] theorem State.dropPacket_rdata (s : State) : (s.dropPacket).rdata = s.rdata := rfl
@[simp] theorem State.dropPacket_inputs (s : State) : (s.dropPacket).inputs = s.inputs := rfl
@[simp] theorem State.dropPacket_rdStream (s : State) : (s.dropPacket).rdStream = s.rdStream := rfl
@[simp] theorem State.dropPacket_wrAnswers (s : State) : (s.dropPacket).wrAnswers = s.wrAnswers := rfl
@[simp] theorem State.dropPacket_draws (s : State) : (s.dropPacket).draws = s.draws := rfl
@[simp] theorem State.dropPacket_trace (s : State) : (s.dropPacket).trace = s.trace := rfl
@[simp] theorem State.dropPacket_cfg (s : State) : (s.dropPacket).cfg = s.cfg := rfl
@[simp] theorem State.dropPacket_epoch (s : State) : (s.dropPacket).epoch = s.epoch := rfl

/-! ### `State.seqWrite` -/

@[simp] theorem State.seqWrite_seq (c : Nat) (v : Byte) (s : State) : (s.seqWrite c v).seq = s.seq.setIfInBounds c v := rfl
@[simp] theorem State.seqWrite_rxhdr (c : Nat) (v : Byte) (s : State) : (s.seqWrite c v).rxhdr = s.rxhdr := rfl
@[simp] theorem State.seqWrite_rxchan (c : Nat) (v : Byte) (s : State) : (s.seqWrite c v).rxchan = s.rxchan := rfl
@[simp] theorem State.seqWrite_rxseq (c : Nat) (v : Byte) (s : State) : (s.seqWrite c v).rxseq = s.rxseq := rfl
@[simp] theorem State.seqWrite_rxlen (c : Nat) (v : Byte) (s : State) : (s.seqWrite c v).rxlen = s.rxlen := rfl
@[simp] theorem State.seqWrite_rxcnt (c : Nat) (v : Byte) (s : State) : (s.seqWrite c v).rxcnt = s.rxcnt := rfl
@[simp] theorem State.seqWrite_rxfsm (c : Nat) (v : Byte) (s : State) : (s.seqWrite c v).rxfsm = s.rxfsm := rfl
@[simp] theorem State.seqWrite_rxvalid (c : Nat) (v : Byte) (s : State) : (s.seqWrite c v).rxvalid = s.rxvalid := rfl
@[simp] theorem State.seqWrite_trunc (c : Nat) (v : Byte) (s : State) : (s.seqWrite c v).trunc = s.trunc := rfl
@[simp] theorem State.seqWrite_cause (c : Nat) (v : Byte) (s : State) : (s.seqWrite c v).cause = s.cause := rfl
@[simp] theorem State.seqWrite_lastCls (c : Nat) (v : Byte) (s : State) : (s.seqWrite c v).lastCls = s.lastCls := rfl
@[simp] theorem State.seqWrite_lastRid (c : Nat) (v : Byte) (s : State) : (s.seqWrite c v).lastRid = s.lastRid := rfl
@[simp] theorem State.seqWrite_acc (c : Nat) (v : Byte) (s : State) : (s.seqWrite c v).acc = s.acc := rfl
@[simp] theorem State.seqWrite_lin (c : Nat) (v : Byte) (s : State) : (s.seqWrite c v).lin = s.lin := rfl
@[simp] theorem State.seqWrite_gyr (c : Nat) (v : Byte) (s : State) : (s.seqWrite c v).gyr = s.gyr := rfl
@[simp] theorem State.seqWrite_mag (c : Nat) (v : Byte) (s : State) : (s.seqWrite c v).mag = s.mag := rfl
@[simp] theorem State.seqWrite_quat (c : Nat) (v : Byte) (s : State) : (s.seqWrite c v).quat = s.quat := rfl
@[simp] theorem State.seqWrite_fgyr (c : Nat) (v : Byte) (s : State) : (s.seqWrite c v).fgyr = s.fgyr := rfl
@[simp] theorem State.seqWrite_rawacc (c : Nat) (v : Byte) (s : State) : (s.seqWrite c v).rawacc = s.rawacc := rfl
@[simp] theorem State.seqWrite_rawgyr (c : Nat) (v : Byte) (s : State) : (s.seqWrite c v).rawgyr = s.rawgyr := rfl
@[simp] theorem State.seqWrite_rawmag (c : Nat) (v : Byte) (s : State) : (s.seqWrite c v).rawmag = s.rawmag := rfl
@[simp] theorem State.seqWrite_stepCnt (c : Nat) (v : Byte) (s : State) : (s.seqWrite c v).stepCnt = s.stepCnt := rfl
@[simp] theorem State.seqWrite_stab (c : Nat) (v : Byte) (s : State) : (s.seqWrite c v).stab = s.stab := rfl
@[simp] theorem State.seqWrite_act (c : Nat) (v : Byte) (s : State) : (s.seqWrite c v).act = s.act := rfl
@[simp] theorem State.seqWrite_buf (c : Nat) (v : Byte) (s : State) : (s.seqWrite c v).buf = s.buf := rfl
@[simp] theorem State.seqWrite_res (c : Nat) (v : Byte) (s : State) : (s.seqWrite c v).res = s.res := rfl
@[simp] theorem State.seqWrite_rdata (c : Nat) (v : Byte) (s : State) : (s.seqWrite c v).rdata = s.rdata := rfl
@[simp] theorem State.seqWrite_inputs (c : Nat) (v : Byte) (s : State) : (s.seqWrite c v).inputs = s.inputs := rfl
@[simp] theorem State.seqWrite_rdStream (c : Nat) (v : Byte) (s : State) : (s.seqWrite c v).rdStream = s.rdStream := rfl
@[simp] theorem State.seqWrite_wrAnswers (c : Nat) (v : Byte) (s : State) : (s.seqWrite c v).wrAnswers = s.wrAnswers := rfl
@[simp] theorem State.seqWrite_draws (c : Nat) (v : Byte) (s : State) : (s.seqWrite c v).draws = s.draws := rfl
@[simp] theorem State.seqWrite_trace (c : Nat) (v : Byte) (s : State) : (s.seqWrite c v).trace = s.trace := rfl
@[simp] theorem State.seqWrite_cfg (c : Nat) (v : Byte) (s : State) : (s.seqWrite c v).cfg = s.cfg := rfl
@[simp] theorem State.seqWrite_epoch (c : Nat) (v : Byte) (s : State) : (s.seqWrite c v).epoch = s.epoch := rfl

/-! ### `State.writeByte` -/

@[simp] theorem State.writeByte_seq (a : Nat) (v : Byte) (s : State) : (s.writeByte a v).seq = s.seq := rfl
@[simp] theorem State.writeByte_rxhdr (a : Nat) (v : Byte) (s : State) : (s.writeByte a v).rxhdr = s.rxhdr := rfl
@[simp] theorem State.writeByte_rxchan (a : Nat) (v : Byte) (s : State) : (s.writeByte a v).rxchan = s.rxchan := rfl
@[simp] theorem State.writeByte_rxseq (a : Nat) (v : Byte) (s : State) : (s.writeByte a v).rxseq = s.rxseq := rfl
@[simp] theorem State.writeByte_rxlen (a : Nat) (v : Byte) (s : State) : (s.writeByte a v).rxlen = s.rxlen := rfl
@[simp] theorem State.writeByte_rxcnt (a : Nat) (v : Byte) (s : State) : (s.writeByte a v).rxcnt = s.rxcnt := rfl
@[simp] theorem State.writeByte_rxfsm (a : Nat) (v : Byte) (s : State) : (s.writeByte a v).rxfsm = s.rxfsm := rfl
@[simp] theorem State.writeByte_rxvalid (a : Nat) (v : Byte) (s : State) : (s.writeByte a v).rxvalid = s.rxvalid := rfl
@[simp] theorem State.writeByte_trunc (a : Nat) (v : Byte) (s : State) : (s.writeByte a v).trunc = s.trunc := rfl
@[simp] theorem State.writeByte_cause (a : Nat) (v : Byte) (s : State) : (s.writeByte a v).cause = s.cause := rfl
@[simp] theorem State.writeByte_lastCls (a : Nat) (v : Byte) (s : State) : (s.writeByte a v).lastCls = s.lastCls := rfl
@[simp] theorem State.writeByte_lastRid (a : Nat) (v : Byte) (s : State) : (s.writeByte a v).lastRid = s.lastRid := rfl
@[simp] theorem State.writeByte_acc (a : Nat) (v : Byte) (s : State) : (s.writeByte a v).acc = s.acc := rfl
@[simp] theorem State.writeByte_lin (a : Nat) (v : Byte) (s : State) : (s.writeByte a v).lin = s.lin := rfl
@[simp] theorem State.writeByte_gyr (a : Nat) (v : Byte) (s : State) : (s.writeByte a v).gyr = s.gyr := rfl
@[simp] theorem State.writeByte_mag (a : Nat) (v : Byte) (s : State) : (s.writeByte a v).mag = s.mag := rfl
@[simp] theorem State.writeByte_quat (a : Nat) (v : Byte) (s : State) : (s.writeByte a v).quat = s.quat := rfl
@[simp] theorem State.writeByte_fgyr (a : Nat) (v : Byte) (s : State) : (s.writeByte a v).fgyr = s.fgyr := rfl
@[simp] theorem State.writeByte_rawacc (a : Nat) (v : Byte) (s : State) : (s.writeByte a v).rawacc = s.rawacc := rfl
@[simp] theorem State.writeByte_rawgyr (a : Nat) (v : Byte) (s : State) : (s.writeByte a v).rawgyr = s.rawgyr := rfl
@[simp] theorem State.writeByte_rawmag (a : Nat) (v : Byte) (s : State) : (s.writeByte a v).rawmag = s.rawmag := rfl
@[simp] theorem State.writeByte_stepCnt (a : Nat) (v : Byte) (s : State) : (s.writeByte a v).stepCnt = s.stepCnt := rfl
@[simp] theorem State.writeByte_stab (a : Nat) (v : Byte) (s : State) : (s.writeByte a v).stab = s.stab := rfl
@[simp] theorem State.writeByte_act (a : Nat) (v : Byte) (s : State) : (s.writeByte a v).act = s.act := rfl
@[simp] theorem State.writeByte_buf (a : Nat) (v : Byte) (s : State) : (s.writeByte a v).buf = Memory.set s.buf a v := rfl
@[simp] theorem State.writeByte_res (a : Nat) (v : Byte) (s : State) : (s.writeByte a v).res = s.res := rfl
@[simp] theorem State.writeByte_rdata (a : Nat) (v : Byte) (s : State) : (s.writeByte a v).rdata = s.rdata := rfl
@[simp] theorem State.writeByte_inputs (a : Nat) (v : Byte) (s : State) : (s.writeByte a v).inputs = s.inputs := rfl
@[simp] theorem State.writeByte_rdStream (a : Nat) (v : Byte) (s : State) : (s.writeByte a v).rdStream = s.rdStream := rfl
@[simp] theorem State.writeByte_wrAnswers (a : Nat) (v : Byte) (s : State) : (s.writeByte a v).wrAnswers = s.wrAnswers := rfl
@[simp] theorem State.writeByte_draws (a : Nat) (v : Byte) (s : State) : (s.writeByte a v).draws = s.draws := rfl
@[simp] theorem State.writeByte_trace (a : Nat) (v : Byte) (s : State) : (s.writeByte a v).trace = s.trace := rfl
@[simp] theorem State.writeByte_cfg (a : Nat) (v : Byte) (s : State) : (s.writeByte a v).cfg = s.cfg := rfl
@[simp] theorem State.writeByte_epoch (a : Nat) (v : Byte) (s : State) : (s.writeByte a v).epoch = s.epoch := rfl

/-! ### `State.tRead` -/

@[simp] theorem State.tRead_seq (k : Nat) (s : State) : (s.tRead k).2.seq = s.seq := rfl
@[simp] theorem State.tRead_rxhdr (k : Nat) (s : State) : (s.tRead k).2.rxhdr = s.rxhdr := rfl
@[simp] theorem State.tRead_rxchan (k : Nat) (s : State) : (s.tRead k).2.rxchan = s.rxchan := rfl
@[simp] theorem State.tRead_rxseq (k : Nat) (s : State) : (s.tRead k).2.rxseq = s.rxseq := rfl
@[simp] theorem State.tRead_rxlen (k : Nat) (s : State) : (s.tRead k).2.rxlen = s.rxlen := rfl
@[simp] theorem State.tRead_rxcnt (k : Nat) (s : State) : (s.tRead k).2.rxcnt = s.rxcnt := rfl
@[simp] theorem State.tRead_rxfsm (k : Nat) (s : State) : (s.tRead k).2.rxfsm = s.rxfsm := rfl
@[simp] theorem State.tRead_rxvalid (k : Nat) (s : State) : (s.tRead k).2.rxvalid = s.rxvalid := rfl
@[simp] theorem State.tRead_trunc (k : Nat) (s : State) : (s.tRead k).2.trunc = s.trunc := rfl
@[simp] theorem State.tRead_cause (k : Nat) (s : State) : (s.tRead k).2.cause = s.cause := rfl
@[simp] theorem State.tRead_lastCls (k : Nat) (s : State) : (s.tRead k).2.lastCls = s.lastCls := rfl
@[simp] theorem State.tRead_lastRid (k : Nat) (s : State) : (s.tRead k).2.lastRid = s.lastRid := rfl
@[simp] theorem State.tRead_acc (k : Nat) (s : State) : (s.tRead k).2.acc = s.acc := rfl
@[simp] theorem State.tRead_lin (k : Nat) (s : State) : (s.tRead k).2.lin = s.lin := rfl
@[simp] theorem State.tRead_gyr (k : Nat) (s : State) : (s.tRead k).2.gyr = s.gyr := rfl
@[simp] theorem State.tRead_mag (k : Nat) (s : State) : (s.tRead k).2.mag = s.mag := rfl
@[simp] theorem State.tRead_quat (k : Nat) (s : State) : (s.tRead k).2.quat = s.quat := rfl
@[simp] theorem State.tRead_fgyr (k : Nat) (s : State) : (s.tRead k).2.fgyr = s.fgyr := rfl
@[simp] theorem State.tRead_rawacc (k : Nat) (s : State) : (s.tRead k).2.rawacc = s.rawacc := rfl
@[simp] theorem State.tRead_rawgyr (k : Nat) (s : State) : (s.tRead k).2.rawgyr = s.rawgyr := rfl
@[simp] theorem State.tRead_rawmag (k : Nat) (s : State) : (s.tRead k).2.rawmag = s.rawmag := rfl
@[simp] theorem State.tRead_stepCnt (k : Nat) (s : State) : (s.tRead k).2.stepCnt = s.stepCnt := rfl
@[simp] theorem State.tRead_stab (k : Nat) (s : State) : (s.tRead k).2.stab = s.stab := rfl
@[simp] theorem State.tRead_act (k : Nat) (s : State) : (s.tRead k).2.act = s.act := rfl
@[simp] theorem State.tRead_buf (k : Nat) (s : State) : (s.tRead k).2.buf = s.buf := rfl
@[simp] theorem State.tRead_res (k : Nat) (s : State) : (s.tRead k).2.res = s.res := rfl
@[simp] theorem State.tRead_rdata (k : Nat) (s : State) : (s.tRead k).2.rdata = s.rdata := rfl
@[simp] theorem State.tRead_inputs (k : Nat) (s : State) : (s.tRead k).2.inputs = s.inputs := rfl
@[simp] theorem State.tRead_rdStream (k : Nat) (s : State) : (s.tRead k).2.rdStream = (takeBytes k s.rdStream s.draws).2.1 := rfl
@[simp] theorem State.tRead_wrAnswers (k : Nat) (s : State) : (s.tRead k).2.wrAnswers = s.wrAnswers := rfl
@[simp] theorem State.tRead_draws (k : Nat) (s : State) : (s.tRead k).2.draws = (takeBytes k s.rdStream s.draws).2.2 := rfl
@[simp] theorem State.tRead_trace (k : Nat) (s : State) : (s.tRead k).2.trace = s.trace ++ [.read k (s.tRead k).1] := rfl
@[simp] theorem State.tRead_cfg (k : Nat) (s : State) : (s.tRead k).2.cfg = s.cfg := rfl
@[simp] theorem State.tRead_epoch (k : Nat) (s : State) : (s.tRead k).2.epoch = s.epoch := rfl

/-! ### `State.tWrite` -/

@[simp] theorem State.tWrite_seq (bs : List Byte) (s : State) : (s.tWrite bs).2.seq = s.seq := rfl
@[simp] theorem State.tWrite_rxhdr (bs : List Byte) (s : State) : (s.tWrite bs).2.rxhdr = s.rxhdr := rfl
@[simp] theorem State.tWrite_rxchan (bs : List Byte) (s : State) : (s.tWrite bs).2.rxchan = s.rxchan := rfl
@[simp] theorem State.tWrite_rxseq (bs : List Byte) (s : State) : (s.tWrite bs).2.rxseq = s.rxseq := rfl
@[simp] theorem State.tWrite_rxlen (bs : List Byte) (s : State) : (s.tWrite bs).2.rxlen = s.rxlen := rfl
@[simp] theorem State.tWrite_rxcnt (bs : List Byte) (s : State) : (s.tWrite bs).2.rxcnt = s.rxcnt := rfl
@[simp] theorem State.tWrite_rxfsm (bs : List Byte) (s : State) : (s.tWrite bs).2.rxfsm = s.rxfsm := rfl
@[simp] theorem State.tWrite_rxvalid (bs : List Byte) (s : State) : (s.tWrite bs).2.rxvalid = s.rxvalid := rfl
@[simp] theorem State.tWrite_trunc (bs : List Byte) (s : State) : (s.tWrite bs).2.trunc = s.trunc := rfl
@[simp] theorem State.tWrite_cause (bs : List Byte) (s : State) : (s.tWrite bs).2.cause = s.cause := rfl
@[simp] theorem State.tWrite_lastCls (bs : List Byte) (s : State) : (s.tWrite bs).2.lastCls = s.lastCls := rfl
@[simp] theorem State.tWrite_lastRid (bs : List Byte) (s : State) : (s.tWrite bs).2.lastRid = s.lastRid := rfl
@[simp] theorem State.tWrite_acc (bs : List Byte) (s : State) : (s.tWrite bs).2.acc = s.acc := rfl
@[simp] theorem State.tWrite_lin (bs : List Byte) (s : State) : (s.tWrite bs).2.lin = s.lin := rfl
@[simp] theorem State.tWrite_gyr (bs : List Byte) (s : State) : (s.tWrite bs).2.gyr = s.gyr := rfl
@[simp] theorem State.tWrite_mag (bs : List Byte) (s : State) : (s.tWrite bs).2.mag = s.mag := rfl
@[simp] theorem State.tWrite_quat (bs : List Byte) (s : State) : (s.tWrite bs).2.quat = s.quat := rfl
@[simp] theorem State.tWrite_fgyr (bs : List Byte) (s : State) : (s.tWrite bs).2.fgyr = s.fgyr := rfl
@[simp] theorem State.tWrite_rawacc (bs : List Byte) (s : State) : (s.tWrite bs).2.rawacc = s.rawacc := rfl
@[simp] theorem State.tWrite_rawgyr (bs : List Byte) (s : State) : (s.tWrite bs).2.rawgyr = s.rawgyr := rfl
@[simp] theorem State.tWrite_rawmag (bs : List Byte) (s : State) : (s.tWrite bs).2.rawmag = s.rawmag := rfl
@[simp] theorem State.tWrite_stepCnt (bs : List Byte) (s : State) : (s.tWrite bs).2.stepCnt = s.stepCnt := rfl
@[simp] theorem State.tWrite_stab (bs : List Byte) (s : State) : (s.tWrite bs).2.stab = s.stab := rfl
@[simp] theorem State.tWrite_act (bs : List Byte) (s : State) : (s.tWrite bs).2.act = s.act := rfl
@[simp] theorem State.tWrite_buf (bs : List Byte) (s : State) : (s.tWrite bs).2.buf = s.buf := rfl
@[simp] theorem State.tWrite_res (bs : List Byte) (s : State) : (s.tWrite bs).2.res = s.res := rfl
@[simp] theorem State.tWrite_rdata (bs : List Byte) (s : State) : (s.tWrite bs).2.rdata = s.rdata := rfl
@[simp] theorem State.tWrite_inputs (bs : List Byte) (s : State) : (s.tWrite bs).2.inputs = s.inputs := rfl
@[simp] theorem State.tWrite_rdStream (bs : List Byte) (s : State) : (s.tWrite bs).2.rdStream = s.rdStream := rfl
@[simp] theorem State.tWrite_wrAnswers (bs : List Byte) (s : State) : (s.tWrite bs).2.wrAnswers = (nextWrite s.wrAnswers s.draws).2.1 := rfl
@[simp] theorem State.tWrite_draws (bs : List Byte) (s : State) : (s.tWrite bs).2.draws = (nextWrite s.wrAnswers s.draws).2.2 := rfl
@[simp] theorem State.tWrite_trace (bs : List Byte) (s : State) : (s.tWrite bs).2.trace = s.trace ++ [.write bs (s.tWrite bs).1] := rfl
@[simp] theorem State.tWrite_cfg (bs : List Byte) (s : State) : (s.tWrite bs).2.cfg = s.cfg := rfl
@[simp] theorem State.tWrite_epoch (bs : List Byte) (s : State) : (s.tWrite bs).2.epoch = s.epoch := rfl

/-! ### `State.report` -/

@[simp] theorem State.report_seq (c : Cause) (r : Res) (d : Word) (s : State) : (s.report c r d).seq = s.seq := rfl
@[simp] theorem State.report_rxhdr (c : Cause) (r : Res) (d : Word) (s : State) : (s.report c r d).rxhdr = s.rxhdr := rfl
@[simp] theorem State.report_rxchan (c : Cause) (r : Res) (d : Word) (s : State) : (s.report c r d).rxchan = s.rxchan := rfl
@[simp] theorem State.report_rxseq (c : Cause) (r : Res) (d : Word) (s : State) : (s.report c r d).rxseq = s.rxseq := rfl
@[simp] theorem State.report_rxlen (c : Cause) (r : Res) (d : Word) (s : State) : (s.report c r d).rxlen = s.rxlen := rfl
@[simp] theorem State.report_rxcnt (c : Cause) (r : Res) (d : Word) (s : State) : (s.report c r d).rxcnt = s.rxcnt := rfl
@[simp] theorem State.report_rxfsm (c : Cause) (r : Res) (d : Word) (s : State) : (s.report c r d).rxfsm = s.rxfsm := rfl
@[simp] theorem State.report_rxvalid (c : Cause) (r : Res) (d : Word) (s : State) : (s.report c r d).rxvalid = s.rxvalid := rfl
@[simp] theorem State.report_trunc (c : Cause) (r : Res) (d : Word) (s : State) : (s.report c r d).trunc = s.trunc := rfl
@[simp] theorem State.report_cause (c : Cause) (r : Res) (d : Word) (s : State) : (s.report c r d).cause = c := rfl
@[simp] theorem State.report_lastCls (c : Cause) (r : Res) (d : Word) (s : State) : (s.report c r d).lastCls = s.lastCls := rfl
@[simp] theorem State.report_lastRid (c : Cause) (r : Res) (d : Word) (s : State) : (s.report c r d).lastRid = s.lastRid := rfl
@[simp] theorem State.report_acc (c : Cause) (r : Res) (d : Word) (s : State) : (s.report c r d).acc = s.acc := rfl
@[simp] theorem State.report_lin (c : Cause) (r : Res) (d : Word) (s : State) : (s.report c r d).lin = s.lin := rfl
@[simp] theorem State.report_gyr (c : Cause) (r : Res) (d : Word) (s : State) : (s.report c r d).gyr = s.gyr := rfl
@[simp] theorem State.report_mag (c : Cause) (r : Res) (d : Word) (s : State) : (s.report c r d).mag = s.mag := rfl
@[simp] theorem State.report_quat (c : Cause) (r : Res) (d : Word) (s : State) : (s.report c r d).quat = s.quat := rfl
@[simp] theorem State.report_fgyr (c : Cause) (r : Res) (d : Word) (s : State) : (s.report c r d).fgyr = s.fgyr := rfl
@[simp] theorem State.report_rawacc (c : Cause) (r : Res) (d : Word) (s : State) : (s.report c r d).rawacc = s.rawacc := rfl
@[simp] theorem State.report_rawgyr (c : Cause) (r : Res) (d : Word) (s : State) : (s.report c r d).rawgyr = s.rawgyr := rfl
@[simp] theorem State.report_rawmag (c : Cause) (r : Res) (d : Word) (s : State) : (s.report c r d).rawmag = s.rawmag := rfl
@[simp] theorem State.report_stepCnt (c : Cause) (r : Res) (d : Word) (s : State) : (s.report c r d).stepCnt = s.stepCnt := rfl
@[simp] theorem State.report_stab (c : Cause) (r : Res) (d : Word) (s : State) : (s.report c r d).stab = s.stab := rfl
@[simp] theorem State.report_act (c : Cause) (r : Res) (d : Word) (s : State) : (s.report c r d).act = s.act := rfl
@[simp] theorem State.report_buf (c : Cause) (r : Res) (d : Word) (s : State) : (s.report c r d).buf = s.buf := rfl
@[simp] theorem State.report_res (c : Cause) (r : Res) (d : Word) (s : State) : (s.report c r d).res = r := rfl
@[simp] theorem State.report_rdata (c : Cause) (r : Res) (d : Word) (s : State) : (s.report c r d).rdata = d := rfl
@[simp] theorem State.report_inputs (c : Cause) (r : Res) (d : Word) (s : State) : (s.report c r d).inputs = s.inputs := rfl
@[simp] theorem State.report_rdStream (c : Cause) (r : Res) (d : Word) (s : State) : (s.report c r d).rdStream = s.rdStream := rfl
@[simp] theorem State.report_wrAnswers (c : Cause) (r : Res) (d : Word) (s : State) : (s.report c r d).wrAnswers = s.wrAnswers := rfl
@[simp] theorem State.report_draws (c : Cause) (r : Res) (d : Word) (s : State) : (s.report c r d).draws = s.draws := rfl
@[simp] theorem State.report_trace (c : Cause) (r : Res) (d : Word) (s : State) : (s.report c r d).trace = s.trace := rfl
@[simp] theorem State.report_cfg (c : Cause) (r : Res) (d : Word) (s : State) : (s.report c r d).cfg = s.cfg := rfl
@[simp] theorem State.report_epoch (c : Cause) (r : Res) (d : Word) (s : State) : (s.report c r d).epoch = s.epoch := rfl

end Sys2Proof.Machine
end

