-- ==== Sys2Proof/Laws/Memory.lean ====
section
/-! SUPPORT. `BUF`: read after write, every write keeps the canonical form, and what storing a run of bytes does. -/

namespace Sys2Proof.Machine

open Sys2Proof

theorem Memory.get?_set_same (m : Memory) (x : Nat) (v : Byte) : Memory.get? (Memory.set m x v) x = some v := by
  induction m with
  | nil => simp [Memory.set, Memory.get?]
  | cons c m ih =>
    unfold Memory.set
    split
    · simp [Memory.get?]
    · split
      · simp [Memory.get?]
      · rename_i h1 h2
        simp only [Memory.get?]
        rw [if_neg (fun h => h2 h.symm)]
        exact ih

theorem Memory.get?_set_ne (m : Memory) {x y : Nat} (v : Byte) (h : y ≠ x) :
    Memory.get? (Memory.set m x v) y = Memory.get? m y := by
  induction m with
  | nil => simp [Memory.set, Memory.get?, Ne.symm h]
  | cons c m ih =>
    unfold Memory.set
    split
    · simp [Memory.get?, Ne.symm h]
    · split
      · rename_i h1 h2
        simp [Memory.get?, ← h2, Ne.symm h]
      · simp [Memory.get?, ih]

/-- The addresses a write leaves listed. -/
theorem Memory.mem_set {m : Memory} {x : Nat} {v : Byte} {c : Host.Cell} (h : c ∈ Memory.set m x v) :
    c = (x, v) ∨ c ∈ m := by
  induction m with
  | nil => simpa [Memory.set] using h
  | cons d m ih =>
    unfold Memory.set at h
    split at h
    · simpa using h
    · split at h
      · rcases List.mem_cons.1 h with h | h
        · exact .inl h
        · exact .inr (List.mem_cons_of_mem _ h)
      · rcases List.mem_cons.1 h with h | h
        · exact .inr (by simp [h])
        · exact (ih h).imp id (List.mem_cons_of_mem _)

/-- A write keeps the canonical form. -/
theorem Memory.wf_set {m : Memory} (h : Memory.wf m) (x : Nat) (v : Byte) : Memory.wf (Memory.set m x v) := by
  induction m with
  | nil => simp [Memory.set, Memory.wf]
  | cons c m ih =>
    obtain ⟨hc, hm⟩ := List.pairwise_cons.1 h
    unfold Memory.set
    split
    · rename_i hx
      refine List.pairwise_cons.2 ⟨fun d hd => ?_, h⟩
      rcases List.mem_cons.1 hd with rfl | hd
      · exact hx
      · exact Nat.lt_trans hx (hc d hd)
    · split
      · rename_i h1 h2
        exact List.pairwise_cons.2 ⟨fun d hd => by simpa [h2] using hc d hd, hm⟩
      · refine List.pairwise_cons.2 ⟨fun d hd => ?_, ih hm⟩
        rcases Memory.mem_set hd with rfl | hd
        · simp only; omega
        · exact hc d hd

/-- A canonical memory lists a written byte at its address. -/
theorem Memory.get?_eq_some_iff {m : Memory} (h : Memory.wf m) (x : Nat) (v : Byte) :
    Memory.get? m x = some v ↔ (x, v) ∈ m := by
  induction m with
  | nil => simp [Memory.get?]
  | cons c m ih =>
    obtain ⟨hc, hm⟩ := List.pairwise_cons.1 h
    simp only [Memory.get?, List.mem_cons]
    by_cases hx : c.1 = x
    · subst hx
      constructor
      · intro hv; left; simp at hv; simp [← hv]
      · rintro (hv | hv)
        · simp [show v = c.2 from congrArg Prod.snd hv]
        · exact absurd (hc _ hv) (Nat.lt_irrefl _)
    · simp only [hx, if_false, ih hm]
      constructor
      · exact .inr
      · rintro (hv | hv)
        · exact absurd (by simp [← hv]) hx
        · exact hv

/-- Two canonical memories that read the same at every address are the same data. -/
theorem Memory.ext_get? {m n : Memory} (hm : Memory.wf m) (hn : Memory.wf n)
    (h : ∀ x, Memory.get? m x = Memory.get? n x) : m = n := by
  have hmem : ∀ c, c ∈ m ↔ c ∈ n := fun (x, v) => by
    rw [← Memory.get?_eq_some_iff hm, ← Memory.get?_eq_some_iff hn, h]
  have irr : ∀ {k : Memory}, Memory.wf k → k.Nodup := fun hk =>
    List.Pairwise.imp (fun {a b} (hab : a.1 < b.1) he => Nat.lt_irrefl _ (he ▸ hab)) hk
  have hp : m.Perm n := (List.perm_ext_iff_of_nodup (irr hm) (irr hn)).2 hmem
  exact hp.eq_of_pairwise (fun a b _ _ hab hba => absurd hab (Nat.lt_asymm hba)) hm hn

/-! ### Reading and writing one byte -/

@[simp] theorem State.readByte_writeByte_same (a : Nat) (v : Byte) (s : State) :
    (s.writeByte a v).readByte a = v := by
  simp [State.readByte, Memory.get?_set_same]

theorem State.readByte_writeByte_ne {a b : Nat} (v : Byte) (s : State) (h : b ≠ a) :
    (s.writeByte a v).readByte b = s.readByte b := by
  simp [State.readByte, Memory.get?_set_ne _ _ h]

/-- A byte read depends on `BUF` and the power-on count alone. -/
theorem State.readByte_congr {s t : State} (hb : t.buf = s.buf) (he : t.epoch = s.epoch) (a : Nat) :
    t.readByte a = s.readByte a := by
  simp [State.readByte, hb, he]

/-! ### Storing a chunk -/

/-- The memory after storing bytes from address `i` on, dropping those at or beyond `mx`. -/
def Memory.store (mx : Nat) : Nat → List Byte → Memory → Memory
  | _, [], m => m
  | i, b :: bs, m => Memory.store mx (i + 1) bs (if i < mx then Memory.set m i b else m)

/-- Everything `storeChunk` does. -/
theorem State.storeChunk_eq (i : Nat) (bs : List Byte) (s : State) :
    s.storeChunk i bs = { s with buf := Memory.store s.cfg.maxPayload i bs s.buf } := by
  induction bs generalizing i s with
  | nil => rfl
  | cons b bs ih =>
    unfold State.storeChunk Memory.store
    rw [ih]
    split <;> rfl

theorem Memory.store_append (mx i : Nat) (bs cs : List Byte) (m : Memory) :
    Memory.store mx i (bs ++ cs) m = Memory.store mx (i + bs.length) cs (Memory.store mx i bs m) := by
  induction bs generalizing i m with
  | nil => rfl
  | cons b bs ih =>
    simp only [List.cons_append, Memory.store, List.length_cons]
    rw [ih, Nat.add_right_comm, Nat.add_assoc]

theorem Memory.wf_store (mx i : Nat) (bs : List Byte) {m : Memory} (h : Memory.wf m) :
    Memory.wf (Memory.store mx i bs m) := by
  induction bs generalizing i m with
  | nil => exact h
  | cons b bs ih =>
    unfold Memory.store
    split
    · exact ih _ (Memory.wf_set h _ _)
    · exact ih _ h

theorem Memory.inRange_store (mx i : Nat) (bs : List Byte) {m : Memory} (h : ∀ c ∈ m, c.1 < mx) :
    ∀ c ∈ Memory.store mx i bs m, c.1 < mx := by
  induction bs generalizing i m with
  | nil => exact h
  | cons b bs ih =>
    unfold Memory.store
    refine ih _ ?_
    split
    · rename_i hi
      intro c hc
      rcases Memory.mem_set hc with rfl | hc
      · exact hi
      · exact h c hc
    · exact h

/-- What a byte of memory is after storing a chunk. -/
theorem Memory.get?_store (mx i : Nat) (bs : List Byte) (m : Memory) (a : Nat) :
    Memory.get? (Memory.store mx i bs m) a =
      if i ≤ a ∧ a < i + bs.length ∧ a < mx then bs[a - i]? else Memory.get? m a := by
  induction bs generalizing i m with
  | nil =>
    have h : ¬ (i ≤ a ∧ a < i + ([] : List Byte).length ∧ a < mx) := by simp; omega
    simp [Memory.store]; omega
  | cons b bs ih =>
    unfold Memory.store
    rw [ih]
    simp only [List.length_cons]
    by_cases h1 : i + 1 ≤ a ∧ a < i + 1 + bs.length ∧ a < mx
    · rw [if_pos h1, if_pos (by omega)]
      obtain ⟨k, rfl⟩ : ∃ k, a = i + 1 + k := ⟨a - (i + 1), by omega⟩
      rw [show i + 1 + k - (i + 1) = k by omega, show i + 1 + k - i = k + 1 by omega]
      simp
    · rw [if_neg h1]
      by_cases ha : a = i
      · subst ha
        by_cases hm : a < mx
        · rw [if_pos hm, if_pos (by omega)]
          simp [Memory.get?_set_same]
        · rw [if_neg hm, if_neg (by omega)]
      · rw [if_neg (c := i ≤ a ∧ a < i + (bs.length + 1) ∧ a < mx) (by omega)]
        split
        · rw [Memory.get?_set_ne _ _ ha]
        · rfl

end Sys2Proof.Machine
end

