-- ==== Sys2Proof/Laws/Ops.lean ====
section
/-! SUPPORT. The shared operations, each with the one lemma that says what it can do: the byte reads behind a report's
fields, the transport requests, how an operation ends, and the chunk loop of `RECV`. -/

namespace Sys2Proof.Machine

open Sys2Proof

/-! ### The configuration check -/

theorem Config.check_iff (c : Config) : c.check = true ↔ c.WellFormed := by
  unfold Config.check
  simp only [Bool.and_eq_true, decide_eq_true_eq, List.all_eq_true, bne_iff_ne, and_assoc]
  constructor
  · rintro ⟨h1, h2, h3, h4, h5, h6, h7⟩
    exact ⟨h1, h2, h3, h4, h5, h6, h7⟩
  · rintro ⟨h1, h2, h3, h4, h5, h6, h7⟩
    exact ⟨h1, h2, h3, h4, h5, h6, h7⟩

/-! ### Multi-byte reads -/

theorem State.le16_eq_wordAt (s : State) (a : Nat) : s.le16 a = s.wordAt a := by
  apply BitVec.eq_of_toNat_eq
  have h0 := (s.readByte a).isLt
  have h1 := (s.readByte (a + 1)).isLt
  simp only [State.le16, State.wordAt, State.memRead, BitVec.toNat_ofNat, BitVec.toNat_append, Nat.add_zero]
  rw [← Nat.shiftLeft_add_eq_or_of_lt h0]
  simp only [Nat.shiftLeft_eq]
  omega

theorem State.le32_eq_bytes (s : State) (a : Nat) :
    s.le32 a = s.readByte (a + 3) ++ s.readByte (a + 2) ++ s.readByte (a + 1) ++ s.readByte a := by
  apply BitVec.eq_of_toNat_eq
  have h0 := (s.readByte a).isLt
  have h1 := (s.readByte (a + 1)).isLt
  have h2 := (s.readByte (a + 2)).isLt
  have h3 := (s.readByte (a + 3)).isLt
  simp only [State.le32, State.memRead, BitVec.toNat_ofNat, BitVec.toNat_append, Nat.add_zero]
  rw [← Nat.shiftLeft_add_eq_or_of_lt h0, ← Nat.shiftLeft_add_eq_or_of_lt h1, ← Nat.shiftLeft_add_eq_or_of_lt h2]
  simp only [Nat.shiftLeft_eq]
  omega

theorem State.dataWord_eq_presentWord (s : State) {k : Nat} (h1 : 1 ≤ k) (h5 : k ≤ 5) :
    s.dataWord k = s.presentWord k := by
  unfold State.dataWord State.presentWord State.wordsPresent
  rw [State.le16_eq_wordAt, show 9 + 2 * (k - 1) = 7 + 2 * k by omega]
  by_cases h : 9 + 2 * k ≤ s.rxcnt.toNat
  · rw [if_pos h, if_pos (by omega)]
  · rw [if_neg h, if_neg (by omega)]

theorem State.reportTs_eq_stampBytes (s : State) : s.reportTs = s.stampBytes := s.le32_eq_bytes 1

theorem State.reportAccy_eq_statusBits (s : State) : s.reportAccy = s.statusBits := by
  unfold State.reportAccy State.statusBits
  generalize s.readByte 7 = b
  revert b
  decide

theorem State.vecReport_eq (s : State) :
    s.vecReport = s.vecBytes := by
  simp [State.vecReport, State.vecBytes, State.dataWord_eq_presentWord, State.reportAccy_eq_statusBits,
    State.reportTs_eq_stampBytes]

theorem State.quatReport_eq (s : State) :
    s.quatReport = s.quatBytes := by
  simp [State.quatReport, State.quatBytes, State.dataWord_eq_presentWord, State.reportAccy_eq_statusBits,
    State.reportTs_eq_stampBytes]

theorem State.scal_eq_selected (s : State) {p : ScalSel} (h1 : 1 ≤ p.k) (h5 : p.k ≤ 5) :
    s.scal p = s.selected p := by
  unfold State.scal State.selected
  rw [s.dataWord_eq_presentWord h1 h5]
  cases p.part with
  | full => rfl
  | lo =>
    generalize s.presentWord p.k = w
    refine BitVec.eq_of_getLsbD_eq fun i hi => ?_
    interval_cases i <;> simp
  | hi =>
    generalize s.presentWord p.k = w
    refine BitVec.eq_of_getLsbD_eq fun i hi => ?_
    interval_cases i <;> simp

theorem State.scalarReport_eq (s : State) {p : ScalSel} (h1 : 1 ≤ p.k) (h5 : p.k ≤ 5) :
    s.scalarReport p = s.scalarBytes p := by
  simp [State.scalarReport, State.scalarBytes, s.scal_eq_selected h1 h5, State.reportAccy_eq_statusBits,
    State.reportTs_eq_stampBytes]

/-! ### How an operation ends -/

theorem State.refuse_eq (s : State) : s.refuse = s.report .refused .refused 0 := rfl

theorem State.access_some (d : Word) (s : State) : s.access (some d) = s.report .cNone .ok d := rfl

theorem State.access_none (s : State) : s.access none = s.report .refused .refused 0 := rfl

theorem State.ignore_eq (c : Cause) (s : State) :
    s.ignore c = { s.report c .none 0 with lastCls := .ignored, lastRid := 0 } := rfl

theorem State.route_eq (cls : PktClass) (b : Byte) (s : State) :
    s.route cls b = { s.report .cNone .ok (b.setWidth 32) with lastCls := cls, lastRid := b } := rfl

theorem State.parseNothing_eq (s : State) :
    s.parseNothing = { s.report .noPacket .none 0 with lastCls := .none, lastRid := 0 } := rfl

/-- The two ends of the `PARSE` of a sensor packet: malformed, or routed. -/
theorem State.sensor_eq (route : State → State) (s : State) :
    s.sensor route =
      if s.rxcnt.toNat < 13 then { s.report .malformed .none 0 with lastCls := .sensor, lastRid := 0 }
      else route s.enterSensor := by
  unfold State.sensor State.reportShort
  by_cases h : s.rxcnt.toNat < 13
  · simp only [h, decide_true, if_true]; rfl
  · simp only [h, decide_false, if_false, Bool.false_eq_true]

theorem State.gyroPacket_short {s : State} (h : s.rxcnt.toNat < 14) :
    s.gyroPacket = { s.report .malformed .none 0 with lastCls := .gyro, lastRid := 0 } := by
  unfold State.gyroPacket; rw [if_pos h]; rfl

theorem State.gyroPacket_long {s : State} (h : 14 ≤ s.rxcnt.toNat) :
    s.gyroPacket =
      { s.report .cNone .ok (s.cfg.ridGirv.setWidth 32) with
        lastCls := .gyro, lastRid := s.cfg.ridGirv,
        quat := { s.quat with i := s.wordAt 0, j := s.wordAt 2, k := s.wordAt 4, real := s.wordAt 6 },
        fgyr := ⟨s.wordAt 8, s.wordAt 10, s.wordAt 12⟩ } := by
  unfold State.gyroPacket
  rw [if_neg (by omega)]
  simp only [State.gyroQuat, State.gyroFgyr, State.le16_eq_wordAt]
  rfl

/-! ### Transport requests -/

/-- A read of `k` bytes from a stream that brings them. -/
theorem takeBytes_bytes (bs : List Byte) (rest : List StreamItem) (d : Nat) :
    takeBytes bs.length (bs.map .byte ++ rest) d = (some bs, rest, d) := by
  induction bs with
  | nil => rfl
  | cons b bs ih => simp [takeBytes, nextItem, ih]

/-- A read that meets a fault: it is answered with the fault, and the stream stands behind it. -/
theorem takeBytes_fault {k : Nat} (bs : List Byte) (rest : List StreamItem) (d : Nat) (h : bs.length < k) :
    takeBytes k (bs.map .byte ++ .fault :: rest) d = (none, rest, d) := by
  induction bs generalizing k with
  | nil =>
    obtain ⟨k, rfl⟩ : ∃ j, k = j + 1 := ⟨k - 1, by simp at h; omega⟩
    simp [takeBytes, nextItem]
  | cons b bs ih =>
    obtain ⟨k, rfl⟩ : ∃ j, k = j + 1 := ⟨k - 1, by simp at h; omega⟩
    simp [takeBytes, nextItem, ih (k := k) (by simpa using h)]

/-- An answer with bytes brings exactly as many as were asked for (R58). -/
theorem takeBytes_length {k : Nat} {xs : List StreamItem} {d : Nat} {bs : List Byte} {r : List StreamItem × Nat}
    (h : takeBytes k xs d = (some bs, r)) : bs.length = k := by
  induction k generalizing xs d bs r with
  | zero => simp [takeBytes] at h; simp [← h.1]
  | succ k ih =>
    unfold takeBytes at h
    split at h
    · simp at h
    · rename_i b xs' d' _
      rcases hr : takeBytes k xs' d' with ⟨o, xs'', d''⟩
      rw [hr] at h
      cases o with
      | none => simp at h
      | some cs => simp at h; simp [← h.1, ih hr]

/-- Everything `T_READ` does. -/
theorem State.tRead_eq (k : Nat) (s : State) :
    s.tRead k =
      (RdAnswer.ofOption (takeBytes k s.rdStream s.draws).1,
       { s with
         rdStream := (takeBytes k s.rdStream s.draws).2.1
         draws := (takeBytes k s.rdStream s.draws).2.2
         trace := s.trace ++ [.read k (RdAnswer.ofOption (takeBytes k s.rdStream s.draws).1)] }) := rfl

/-- Everything `T_WRITE` does. -/
theorem State.tWrite_eq (bs : List Byte) (s : State) :
    s.tWrite bs =
      ((nextWrite s.wrAnswers s.draws).1,
       { s with
         wrAnswers := (nextWrite s.wrAnswers s.draws).2.1
         draws := (nextWrite s.wrAnswers s.draws).2.2
         trace := s.trace ++ [.write bs (nextWrite s.wrAnswers s.draws).1] }) := rfl

/-! ### The chunk loop of `RECV` -/

/-- There are `ceil (|bs| / tMax)` payload reads (41_framer_rx.md R116). -/
@[simp] theorem payloadReads_length (tMax : Nat) (bs : List Byte) :
    (payloadReads tMax bs).length = (bs.length + tMax - 1) / tMax := by
  simp [payloadReads]

/-- An empty payload asks for no read (R124). -/
theorem payloadReads_nil {tMax : Nat} (ht : 1 ≤ tMax) : payloadReads tMax [] = [] :=
  List.eq_nil_of_length_eq_zero (by rw [payloadReads_length, List.length_nil, Nat.div_eq_of_lt (by omega)])

/-- The first payload read takes the largest chunk allowed, and the others are those of what it leaves (R116). -/
theorem payloadReads_cons {tMax : Nat} (ht : 1 ≤ tMax) {bs : List Byte} (hb : 1 ≤ bs.length) :
    payloadReads tMax bs =
      .read (min bs.length tMax) (.bytes (bs.take (min bs.length tMax))) ::
        payloadReads tMax (bs.drop (min bs.length tMax)) := by
  have hcount : (bs.length + tMax - 1) / tMax = (bs.length - 1) / tMax + 1 := by
    rw [← Nat.add_div_right _ (by omega)]
    congr 1
    omega
  have htake : bs.take (min bs.length tMax) = bs.take tMax := by
    rw [Nat.min_comm, ← List.take_take, List.take_length]
  by_cases hle : bs.length ≤ tMax
  · rw [Nat.min_eq_left hle, List.drop_length, payloadReads_nil ht]
    simp [payloadReads, hcount, Nat.div_eq_of_lt (show bs.length - 1 < tMax by omega), Nat.min_eq_left hle,
      List.take_of_length_le hle]
  · rw [htake, Nat.min_eq_right (by omega)]
    unfold payloadReads
    rw [hcount, List.range_succ_eq_map, List.map_cons, List.map_map, List.length_drop,
      show bs.length - tMax + tMax - 1 = bs.length - 1 by omega]
    refine congrArg₂ _ (by simp [Nat.min_eq_right (show tMax ≤ bs.length by omega)]) (List.map_congr_left fun j _ => ?_)
    have hj : (j + 1) * tMax = tMax + j * tMax := by ring
    simp only [Function.comp, Nat.succ_eq_add_one, hj, List.drop_drop, Nat.sub_add_eq]

/-- What the loop may change: `BUF` below `MAX_PAYLOAD` (keeping its form), the read stream, the trace. -/
theorem State.payloadLoop_frame (n fuel i : Nat) (s : State) :
    ∃ buf rd d tr, (s.payloadLoop n fuel i).2 = { s with buf := buf, rdStream := rd, draws := d, trace := tr } ∧
      (Memory.wf s.buf → Memory.wf buf) ∧
      ((∀ c ∈ s.buf, c.1 < s.cfg.maxPayload) → ∀ c ∈ buf, c.1 < s.cfg.maxPayload) ∧
      (∀ a, s.cfg.maxPayload ≤ a → Memory.get? buf a = Memory.get? s.buf a) := by
  induction fuel generalizing i s with
  | zero => exact ⟨_, _, _, _, rfl, id, id, fun _ _ => rfl⟩
  | succ fuel ih =>
    unfold State.payloadLoop
    by_cases hi : i < n
    · rw [if_pos hi, State.tRead_eq]
      rcases takeBytes (min (n - i) s.cfg.tMax) s.rdStream s.draws with ⟨_ | c, rd, d⟩
      · exact ⟨_, _, _, _, rfl, id, id, fun _ _ => rfl⟩
      · simp only [RdAnswer.ofOption, State.storeChunk_eq]
        obtain ⟨buf, rd', d', tr, h, hw, hr, ha⟩ := ih (i + min (n - i) s.cfg.tMax) _
        rw [h]
        refine ⟨_, _, _, _, rfl, fun h0 => hw (Memory.wf_store _ _ _ h0), fun h0 => hr (Memory.inRange_store _ _ _ h0),
          fun a h0 => ?_⟩
        rw [ha a h0]
        simp only [Memory.get?_store]
        rw [if_neg (by omega)]
    · rw [if_neg hi]
      exact ⟨_, _, _, _, rfl, id, id, fun _ _ => rfl⟩

/-- The loop over a stream that brings the rest of the payload: every byte is stored, in the reads of R116. -/
theorem State.payloadLoop_bytes {n fuel i : Nat} {bs : List Byte} {rest : List StreamItem} {s : State}
    (ht : 1 ≤ s.cfg.tMax) (hs : s.rdStream = bs.map .byte ++ rest) (hn : i + bs.length = n)
    (hf : bs.length ≤ fuel) :
    s.payloadLoop n fuel i =
      (true, { s with
        buf := Memory.store s.cfg.maxPayload i bs s.buf, rdStream := rest
        trace := s.trace ++ payloadReads s.cfg.tMax bs }) := by
  induction fuel generalizing i bs s with
  | zero =>
    obtain rfl : bs = [] := List.eq_nil_of_length_eq_zero (by omega)
    simp at hs
    simp [State.payloadLoop, Memory.store, payloadReads_nil ht, ← hs]
  | succ fuel ih =>
    unfold State.payloadLoop
    by_cases hi : i < n
    · rw [if_pos hi, State.tRead_eq, payloadReads_cons ht (by omega), show n - i = bs.length by omega]
      have hk : min bs.length s.cfg.tMax ≤ bs.length := by omega
      generalize hkk : min bs.length s.cfg.tMax = k at *
      have hlen : (bs.take k).length = k := by simp [hk]
      have hsplit : s.rdStream = (bs.take k).map .byte ++ ((bs.drop k).map .byte ++ rest) := by
        rw [hs, ← List.append_assoc, ← List.map_append, List.take_append_drop]
      have htake := takeBytes_bytes (bs.take k) ((bs.drop k).map .byte ++ rest) s.draws
      rw [hlen, ← hsplit] at htake
      rw [htake]
      simp only [RdAnswer.ofOption, State.storeChunk_eq]
      rw [ih (i := i + k) (bs := bs.drop k)
        (s := { s with buf := Memory.store s.cfg.maxPayload i (bs.take k) s.buf,
                       rdStream := (bs.drop k).map .byte ++ rest,
                       trace := s.trace ++ [.read k (.bytes (bs.take k))] })
        ht rfl (by simp; omega) (by simp; omega)]
      have hst := Memory.store_append s.cfg.maxPayload i (bs.take k) (bs.drop k) s.buf
      rw [List.take_append_drop, hlen] at hst
      simp [hst]
    · rw [if_neg hi]
      obtain rfl : bs = [] := List.eq_nil_of_length_eq_zero (by omega)
      simp at hs
      simp [Memory.store, payloadReads_nil ht, ← hs]

/-- The loop over a stream that faults after `bs`, fewer bytes than the payload has: the whole chunks before the faulting
request are stored, and that request is the last one (41_framer_rx.md R120). -/
theorem State.payloadLoop_fault {n fuel i : Nat} {bs : List Byte} {rest : List StreamItem} {s : State}
    (ht : 1 ≤ s.cfg.tMax) (hs : s.rdStream = bs.map .byte ++ .fault :: rest) (hn : i + bs.length < n)
    (hf : bs.length + 1 ≤ fuel) :
    s.payloadLoop n fuel i =
      (false, { s with
        buf := Memory.store s.cfg.maxPayload i (bs.take (bs.length / s.cfg.tMax * s.cfg.tMax)) s.buf
        rdStream := rest
        trace := s.trace ++ (payloadReads s.cfg.tMax (bs.take (bs.length / s.cfg.tMax * s.cfg.tMax)) ++
          [.read (min (n - i - bs.length / s.cfg.tMax * s.cfg.tMax) s.cfg.tMax) .fault]) }) := by
  induction fuel generalizing i bs s with
  | zero => omega
  | succ fuel ih =>
    unfold State.payloadLoop
    rw [if_pos (by omega), State.tRead_eq]
    by_cases hb : bs.length < s.cfg.tMax
    · rw [hs, takeBytes_fault _ _ _ (show bs.length < min (n - i) s.cfg.tMax by omega)]
      simp [RdAnswer.ofOption, Nat.div_eq_of_lt hb, Memory.store, payloadReads_nil ht]
    · have hk : min (n - i) s.cfg.tMax = s.cfg.tMax := by omega
      rw [hk]
      have hlen : (bs.take s.cfg.tMax).length = s.cfg.tMax := by simp; omega
      have hsplit : s.rdStream = (bs.take s.cfg.tMax).map .byte ++ ((bs.drop s.cfg.tMax).map .byte ++ .fault :: rest) := by
        rw [hs, ← List.append_assoc, ← List.map_append, List.take_append_drop]
      have htake := takeBytes_bytes (bs.take s.cfg.tMax) ((bs.drop s.cfg.tMax).map .byte ++ .fault :: rest) s.draws
      rw [hlen, ← hsplit] at htake
      rw [htake]
      simp only [RdAnswer.ofOption, State.storeChunk_eq]
      rw [ih (i := i + s.cfg.tMax) (bs := bs.drop s.cfg.tMax)
        (s := { s with buf := Memory.store s.cfg.maxPayload i (bs.take s.cfg.tMax) s.buf,
                       rdStream := (bs.drop s.cfg.tMax).map .byte ++ .fault :: rest,
                       trace := s.trace ++ [.read s.cfg.tMax (.bytes (bs.take s.cfg.tMax))] })
        ht rfl (by simp; omega) (by simp; omega)]
      obtain ⟨m, hm⟩ : ∃ m, bs.length / s.cfg.tMax = m + 1 :=
        ⟨bs.length / s.cfg.tMax - 1, by have := (Nat.one_le_div_iff (by omega)).2 (Nat.le_of_not_lt hb); omega⟩
      have hdiv : (bs.length - s.cfg.tMax) / s.cfg.tMax = m := by
        rw [show bs.length - s.cfg.tMax = bs.length - s.cfg.tMax * 1 by omega, Nat.sub_mul_div, hm]
        rfl
      have hmul : (m + 1) * s.cfg.tMax = s.cfg.tMax + m * s.cfg.tMax := by ring
      have htakes : bs.take (s.cfg.tMax + m * s.cfg.tMax) =
          bs.take s.cfg.tMax ++ (bs.drop s.cfg.tMax).take (m * s.cfg.tMax) := List.take_add
      have hst := Memory.store_append s.cfg.maxPayload i (bs.take s.cfg.tMax)
        ((bs.drop s.cfg.tMax).take (m * s.cfg.tMax)) s.buf
      rw [← htakes, hlen] at hst
      have hreads : payloadReads s.cfg.tMax (bs.take (s.cfg.tMax + m * s.cfg.tMax)) =
          .read s.cfg.tMax (.bytes (bs.take s.cfg.tMax)) ::
            payloadReads s.cfg.tMax ((bs.drop s.cfg.tMax).take (m * s.cfg.tMax)) := by
        have hk' : min (bs.take (s.cfg.tMax + m * s.cfg.tMax)).length s.cfg.tMax = s.cfg.tMax := by simp; omega
        rw [payloadReads_cons ht (by simp; omega), hk', htakes, List.take_append_of_le_length (by omega),
          List.take_take, Nat.min_self, List.drop_append_of_le_length (by omega), List.drop_of_length_le (by omega),
          List.nil_append]
      simp [hst, hdiv, hm, hmul, hreads, Nat.sub_sub, Nat.add_assoc]

end Sys2Proof.Machine
end

