-- ==== Sys2Proof/Laws/Recv.lean ====
section
/-! SUPPORT. What `RECV` does, one equation for each way its header read ends (41_framer_rx.md R111 to R120), and what it
leaves alone whatever its outcome. -/

namespace Sys2Proof.Machine

open Sys2Proof

/-- The declared length of a header by its bytes (30_encoding.md R71). -/
theorem Header.declaredLength_eq (h : Header) :
    h.declaredLength = h.b0.toNat + 256 * (h.b1.toNat % 128) := by
  have h0 := h.b0.isLt
  unfold Header.declaredLength
  rw [Nat.or_comm]
  rw [show (0x7F : Nat) = 2 ^ 7 - 1 from rfl, Nat.and_two_pow_sub_one_eq_mod, Nat.or_comm,
    ← Nat.shiftLeft_add_eq_or_of_lt h0, Nat.shiftLeft_eq]
  omega

/-- The flag bit is no part of the declared length (R72). -/
theorem Header.declaredLength_flag (b0 b1 b2 b3 : Byte) :
    (Header.mk b0 (b1 ^^^ 0x80) b2 b3).declaredLength = (Header.mk b0 b1 b2 b3).declaredLength := by
  have h : ∀ b : Byte, (b ^^^ 0x80).toNat % 128 = b.toNat % 128 := by decide
  simp only [Header.declaredLength_eq, h]

/-- `RECV` up to the answer of the header read. -/
def State.awaitHeader (s : State) : State := { s.begin.dropPacket with rxfsm := .awaitingHeader }

theorem State.recv_eq (s : State) :
    s.recv =
      match (takeBytes 4 s.rdStream s.draws).1 with
      | none => ({ (s.awaitHeader.tRead 4).2 with rxfsm := .timedOut }).raise .tfaultHdr .fault
      | some bs => (s.awaitHeader.tRead 4).2.recvHeader (Header.ofBytes bs) := by
  have h1 : (s.awaitHeader.tRead 4).1 = RdAnswer.ofOption (takeBytes 4 s.rdStream s.draws).1 := rfl
  unfold State.recv
  change (match s.awaitHeader.tRead 4 with
    | (.fault, t) => ({ t with rxfsm := .timedOut } : State).raise .tfaultHdr .fault
    | (.bytes bs, t) => t.recvHeader (Header.ofBytes bs)) = _
  rcases hr : s.awaitHeader.tRead 4 with ⟨a, t⟩
  rw [hr] at h1
  simp only at h1
  subst h1
  cases (takeBytes 4 s.rdStream s.draws).1 <;> rfl

/-- A `RECV` whose header read faults (R119). -/
theorem State.recv_header_fault {s : State} (h : (takeBytes 4 s.rdStream s.draws).1 = none) :
    s.recv =
      { s with
        rxfsm := .timedOut, rxvalid := false, trunc := false, rxcnt := 0, cause := .tfaultHdr, res := .fault, rdata := 0
        rdStream := (takeBytes 4 s.rdStream s.draws).2.1
        draws := (takeBytes 4 s.rdStream s.draws).2.2
        trace := s.trace ++ [.read 4 .fault] } := by
  have ht : (s.awaitHeader.tRead 4).2.trace = s.trace ++ [.read 4 .fault] := by
    rw [State.tRead_eq]
    show s.trace ++ [.read 4 (RdAnswer.ofOption (takeBytes 4 s.rdStream s.draws).1)] = _
    rw [h]; rfl
  rw [State.recv_eq, h, ← ht]
  rfl

/-- `s` once the four header bytes have arrived and are latched (R115). -/
def State.latched (hd : Header) (rest : List StreamItem) (d : Nat) (s : State) : State :=
  { s with
    cause := .cNone, rxvalid := false, trunc := false, rxcnt := 0, rxfsm := .awaitingHeader, rxhdr := hd,
    rdStream := rest, draws := d, trace := s.trace ++ [.read 4 (.bytes hd.bytes)] }

theorem State.recv_header {s : State} {h0 h1 h2 h3 : Byte} {rest : List StreamItem} {d : Nat}
    (h : takeBytes 4 s.rdStream s.draws = (some [h0, h1, h2, h3], rest, d)) :
    s.recv = ({ s.latched ⟨h0, h1, h2, h3⟩ rest d with rxhdr := s.rxhdr }).recvHeader ⟨h0, h1, h2, h3⟩ := by
  have ht : (s.awaitHeader.tRead 4).2 = { s.latched ⟨h0, h1, h2, h3⟩ rest d with rxhdr := s.rxhdr } := by
    rw [State.tRead_eq]
    show ({ s.awaitHeader with
      rdStream := (takeBytes 4 s.rdStream s.draws).2.1, draws := (takeBytes 4 s.rdStream s.draws).2.2,
      trace := s.trace ++ [.read 4 (RdAnswer.ofOption (takeBytes 4 s.rdStream s.draws).1)] } : State) = _
    rw [h]; rfl
  rw [State.recv_eq, h, ht]
  rfl

/-- A `RECV` whose header declares length 0 (R113). -/
theorem State.recv_zero {s : State} {h0 h1 h2 h3 : Byte} {rest : List StreamItem} {d : Nat}
    (h : takeBytes 4 s.rdStream s.draws = (some [h0, h1, h2, h3], rest, d))
    (hl : (Header.mk h0 h1 h2 h3).declaredLength = 0) :
    s.recv = { s.latched ⟨h0, h1, h2, h3⟩ rest d with
      rxfsm := .idle, cause := .zeroLen, res := .none, rdata := 0 } := by
  rw [State.recv_header h]
  unfold State.recvHeader
  rw [if_pos hl]
  rfl

/-- A `RECV` whose header declares length 1, 2 or 3 (R114). -/
theorem State.recv_short {s : State} {h0 h1 h2 h3 : Byte} {rest : List StreamItem} {d : Nat}
    (h : takeBytes 4 s.rdStream s.draws = (some [h0, h1, h2, h3], rest, d))
    (h0' : (Header.mk h0 h1 h2 h3).declaredLength ≠ 0) (h4 : (Header.mk h0 h1 h2 h3).declaredLength < 4) :
    s.recv = { s.latched ⟨h0, h1, h2, h3⟩ rest d with
      rxfsm := .idle, cause := .shortLen, res := .none, rdata := 0 } := by
  rw [State.recv_header h]
  unfold State.recvHeader
  rw [if_neg h0', if_pos h4]
  rfl

/-- `s` with a header of payload length `n` accepted, before the first payload byte (R115). -/
def State.accepted (hd : Header) (n : Nat) (rest : List StreamItem) (d : Nat) (s : State) : State :=
  { s.latched hd rest d with
    rxchan := hd.b2, rxseq := hd.b3, rxlen := BitVec.ofNat 15 n, rxfsm := .awaitingPayload }

/-- A `RECV` whose header declares length 4 or more ends as its payload loop does (R115 to R120). -/
theorem State.recv_payload {s : State} {h0 h1 h2 h3 : Byte} {rest : List StreamItem} {d n : Nat}
    (h : takeBytes 4 s.rdStream s.draws = (some [h0, h1, h2, h3], rest, d))
    (hn : (Header.mk h0 h1 h2 h3).declaredLength = n + 4) :
    s.recv =
      match (s.accepted ⟨h0, h1, h2, h3⟩ n rest d).payloadLoop n n 0 with
      | (false, t) => { t with rxfsm := .timedOut, cause := .tfaultPay, res := .fault, rdata := 0 }
      | (true, t) =>
        { t with rxcnt := storedCount t.cfg n, trunc := truncFlag t.cfg n, rxvalid := true, rxfsm := .complete,
                 res := .ok, rdata := 0 } := by
  rw [State.recv_header h]
  unfold State.recvHeader
  rw [if_neg (by omega), if_neg (by omega), hn, Nat.add_sub_cancel]
  rfl

/-- A read of the first `k` bytes of a stream that brings at least `k`. -/
theorem takeBytes_prefix (bs : List Byte) (k : Nat) (rest : List StreamItem) (d : Nat) (h : k ≤ bs.length) :
    takeBytes k (bs.map .byte ++ rest) d = (some (bs.take k), (bs.drop k).map .byte ++ rest, d) := by
  have := takeBytes_bytes (bs.take k) ((bs.drop k).map .byte ++ rest) d
  rwa [List.length_take, Nat.min_eq_left h, ← List.append_assoc, ← List.map_append, List.take_append_drop] at this

/-- The loop looks at `BUF`, the read stream and the limits alone: other header registers, another trace before it and
other counters pass through it unread. -/
theorem State.payloadLoop_unread (n fuel i : Nat) (s : State) (hd : Header) (tr : List TraceEntry) (q : Vector Byte 6) :
    ∃ es, (s.payloadLoop n fuel i).2.trace = s.trace ++ es ∧
      ({ s with rxhdr := hd, trace := tr, seq := q } : State).payloadLoop n fuel i =
        ((s.payloadLoop n fuel i).1, { (s.payloadLoop n fuel i).2 with rxhdr := hd, trace := tr ++ es, seq := q }) := by
  induction fuel generalizing i s tr with
  | zero => exact ⟨[], by simp [State.payloadLoop], by simp [State.payloadLoop]⟩
  | succ fuel ih =>
    unfold State.payloadLoop
    by_cases hi : i < n
    · rw [if_pos hi, if_pos hi, State.tRead_eq, State.tRead_eq]
      simp only
      rcases takeBytes (min (n - i) s.cfg.tMax) s.rdStream s.draws with ⟨_ | c, rd, d⟩
      · exact ⟨_, rfl, rfl⟩
      · simp only [RdAnswer.ofOption, State.storeChunk_eq]
        obtain ⟨es, h1, h2⟩ := ih (i + min (n - i) s.cfg.tMax)
          { s with buf := Memory.store s.cfg.maxPayload i c s.buf, rdStream := rd, draws := d,
                   trace := s.trace ++ [.read (min (n - i) s.cfg.tMax) (.bytes c)] }
          (tr ++ [.read (min (n - i) s.cfg.tMax) (.bytes c)])
        refine ⟨.read (min (n - i) s.cfg.tMax) (.bytes c) :: es, ?_, ?_⟩
        · rw [h1]; simp
        · rw [h2]; simp
    · rw [if_neg hi, if_neg hi]
      exact ⟨[], by simp, by simp⟩

/-- Every way a `RECV` can end, with the registers it leaves; the rest of `s` is as it was. -/
theorem State.recv_cases (s : State) :
    ∃ (hd : Header) (chan sq : Byte) (len : BitVec 15) (cnt : BitVec 9) (fsm : RxFsm) (v tr : Bool) (c : Cause)
      (buf : Memory) (r : Res) (rd : List StreamItem) (d : Nat) (es : List TraceEntry),
      s.recv = { s with
        rxhdr := hd, rxchan := chan, rxseq := sq, rxlen := len, rxcnt := cnt, rxfsm := fsm, rxvalid := v, trunc := tr,
        cause := c, buf := buf, res := r, rdata := 0, rdStream := rd, draws := d, trace := es } ∧
      (Memory.wf s.buf → Memory.wf buf) ∧
      ((∀ c ∈ s.buf, c.1 < s.cfg.maxPayload) → ∀ c ∈ buf, c.1 < s.cfg.maxPayload) ∧
      (∀ a, s.cfg.maxPayload ≤ a → Memory.get? buf a = Memory.get? s.buf a) ∧
      ((v = false ∧ tr = false ∧ cnt = 0 ∧
          (r = .none ∧ fsm = .idle ∧ (c = .zeroLen ∨ c = .shortLen) ∨
           r = .fault ∧ fsm = .timedOut ∧ (c = .tfaultHdr ∨ c = .tfaultPay))) ∨
       (v = true ∧ r = .ok ∧ fsm = .complete ∧ c = .cNone ∧ chan = hd.b2 ∧ sq = hd.b3 ∧
          ∃ n, hd.declaredLength = n + 4 ∧ len = BitVec.ofNat 15 n ∧ cnt = storedCount s.cfg n ∧
            tr = truncFlag s.cfg n)) := by
  rcases htake : takeBytes 4 s.rdStream s.draws with ⟨_ | bs, rest, d⟩
  · rw [State.recv_header_fault (by rw [htake])]
    exact ⟨_, _, _, _, _, _, _, _, _, _, _, _, _, _, rfl, id, id, fun _ _ => rfl,
      .inl ⟨rfl, rfl, rfl, .inr ⟨rfl, rfl, .inl rfl⟩⟩⟩
  · have hlen := takeBytes_length htake
    match bs, hlen with
    | [h0, h1, h2, h3], _ =>
      by_cases hz : (Header.mk h0 h1 h2 h3).declaredLength = 0
      · rw [State.recv_zero htake hz]
        exact ⟨_, _, _, _, _, _, _, _, _, _, _, _, _, _, rfl, id, id, fun _ _ => rfl,
          .inl ⟨rfl, rfl, rfl, .inl ⟨rfl, rfl, .inl rfl⟩⟩⟩
      by_cases h4 : (Header.mk h0 h1 h2 h3).declaredLength < 4
      · rw [State.recv_short htake hz h4]
        exact ⟨_, _, _, _, _, _, _, _, _, _, _, _, _, _, rfl, id, id, fun _ _ => rfl,
          .inl ⟨rfl, rfl, rfl, .inl ⟨rfl, rfl, .inr rfl⟩⟩⟩
      obtain ⟨n, hn⟩ : ∃ n, (Header.mk h0 h1 h2 h3).declaredLength = n + 4 :=
        ⟨(Header.mk h0 h1 h2 h3).declaredLength - 4, by omega⟩
      rw [State.recv_payload htake hn]
      obtain ⟨buf, rd, d', es, hl, hw, hr, ha⟩ :=
        State.payloadLoop_frame n n 0 (s.accepted ⟨h0, h1, h2, h3⟩ n rest d)
      rcases hp : (s.accepted ⟨h0, h1, h2, h3⟩ n rest d).payloadLoop n n 0 with ⟨b, t⟩
      rw [hp] at hl
      simp only at hl
      subst hl
      cases b
      · exact ⟨_, _, _, _, _, _, _, _, _, _, _, _, _, _, rfl, hw, hr, ha,
          .inl ⟨rfl, rfl, rfl, .inr ⟨rfl, rfl, .inr rfl⟩⟩⟩
      · exact ⟨_, _, _, _, _, _, _, _, _, _, _, _, _, _, rfl, hw, hr, ha,
          .inr ⟨rfl, rfl, rfl, rfl, rfl, rfl, n, hn, rfl, rfl, rfl⟩⟩

end Sys2Proof.Machine
end

