-- ==== Sys2Proof/Laws/Exec.lean ====
section
/-! SUPPORT. What one instruction can change, said once: the packet rows and `PARSE`, the reads, `SEND`. `RECV` has its own
lemma, `State.recv_cases`. -/

namespace Sys2Proof.Machine

open Sys2Proof

/-- What a `PARSE` can write: the verdict, the result, the Value Store; nothing else (42_demux.md R130). -/
def State.Parsed (s t : State) : Prop :=
  ∃ c r d cls rid acc lin gyr mag quat fgyr rawacc rawgyr rawmag stepCnt stab act,
    t = { s with
      cause := c, res := r, rdata := d, lastCls := cls, lastRid := rid, acc := acc, lin := lin, gyr := gyr, mag := mag,
      quat := quat, fgyr := fgyr, rawacc := rawacc, rawgyr := rawgyr, rawmag := rawmag, stepCnt := stepCnt, stab := stab,
      act := act }

/-- The rows of the two packet maps and `PARSE` itself. -/
def parsesHeldPacket : Instr → Bool
  | .connect => false
  | .send _ _ => false
  | .recv => false
  | .ldb _ => false
  | .stb _ _ => false
  | .rdsr _ => false
  | .cvt _ _ => false
  | .getr _ _ => false
  | .getf _ _ => false
  | .geta _ => false
  | .gett _ => false
  | _ => true

theorem State.parsed_report (s : State) : ∀ i ∈ [Instr.rptAcc, .rptLin, .rptGyr, .rptMag, .rptRv, .rptRvv1, .rptRvv2,
    .rptRvv3, .rptStep, .rptStab, .rptAct, .rptRawacc, .rptRawgyr, .rptRawmag, .rptOther],
    ∃ t, exec i s = .next t ∧ s.Parsed t := by
  intro i hi
  simp only [List.mem_cons, List.not_mem_nil, or_false] at hi
  rcases hi with rfl | rfl | rfl | rfl | rfl | rfl | rfl | rfl | rfl | rfl | rfl | rfl | rfl | rfl | rfl <;>
    refine ⟨_, rfl, ?_⟩ <;> unfold State.sensor <;> split <;>
    exact ⟨_, _, _, _, _, _, _, _, _, _, _, _, _, _, _, _, _, rfl⟩

theorem State.parsed_basets (s : State) : ∃ t, exec .pktRptBasets s = .next t ∧ s.Parsed t := by
  have h : exec .pktRptBasets s = exec (decodeReport s.cfg (s.readByte 5)).instr s := by
    simp only [exec, execPktRptBasets]
    cases decodeReport s.cfg (s.readByte 5) <;> rfl
  rw [h]
  refine State.parsed_report s _ ?_
  cases decodeReport s.cfg (s.readByte 5) <;> simp [RptRow.instr]

theorem State.parsed_packet (s : State) (r : PktRow) : ∃ t, exec r.instr s = .next t ∧ s.Parsed t := by
  cases r
  case rptBasets => exact s.parsed_basets
  case gyro =>
    refine ⟨_, rfl, ?_⟩
    unfold State.gyroPacket
    split <;> exact ⟨_, _, _, _, _, _, _, _, _, _, _, _, _, _, _, _, _, rfl⟩
  all_goals exact ⟨_, rfl, _, _, _, _, _, _, _, _, _, _, _, _, _, _, _, _, _, rfl⟩

/-- `PARSE` of a held packet runs the row the demux gives it (R130). -/
theorem exec_parse_valid {s : State} (h : s.rxvalid = true) :
    exec .parse s = exec (decodePacket s.cfg s.rxchan s.firstByte).instr s := by
  simp only [exec, execParse, h]
  cases decodePacket s.cfg s.rxchan s.firstByte <;> rfl

theorem exec_parse_none {s : State} (h : s.rxvalid = false) : exec .parse s = .next s.parseNothing := by
  simp only [exec, execParse, h]

/-- Every packet row, every report row and `PARSE` end with a result and write nothing but what a `PARSE` may. -/
theorem exec_parsed {i : Instr} (h : parsesHeldPacket i = true) (s : State) : ∃ t, exec i s = .next t ∧ s.Parsed t := by
  cases i
  case parse =>
    cases hv : s.rxvalid with
    | false => exact ⟨_, exec_parse_none hv, _, _, _, _, _, _, _, _, _, _, _, _, _, _, _, _, _, rfl⟩
    | true => rw [exec_parse_valid hv]; exact s.parsed_packet _
  case pktCmd => exact s.parsed_packet .cmd
  case pktExe => exact s.parsed_packet .exe
  case pktCtlProdid => exact s.parsed_packet .ctlProdid
  case pktCtlCmdresp => exact s.parsed_packet .ctlCmdresp
  case pktCtlFrsresp => exact s.parsed_packet .ctlFrsresp
  case pktCtlOther => exact s.parsed_packet .ctlOther
  case pktRptBasets => exact s.parsed_packet .rptBasets
  case pktRptOther => exact s.parsed_packet .rptOther
  case pktWake => exact s.parsed_packet .wake
  case pktGyro => exact s.parsed_packet .gyro
  case pktBadchan => exact s.parsed_packet .badchan
  all_goals first
    | exact Bool.noConfusion h
    | exact s.parsed_report _ (by simp)

/-- A read changes the cause and the result ports alone (60_exceptions.md R228, 44_qformat.md R192). -/
theorem State.access_frame (v : Option Word) (s : State) : ∃ c r d, s.access v = s.report c r d := by
  cases v <;> exact ⟨_, _, _, rfl⟩

/-- What a `SEND` that is not refused leaves (40_framer_tx.md R100). -/
theorem State.send_eq (ch : Byte) (n : Nat) (s : State) :
    s.send ch n =
      { s with
        rxvalid := false, trunc := false, rxcnt := 0, rxfsm := .idle
        seq := s.seq.setIfInBounds ch.toNat (s.seqRead ch.toNat + 1)
        wrAnswers := (nextWrite s.wrAnswers s.draws).2.1
        draws := (nextWrite s.wrAnswers s.draws).2.2
        trace := s.trace ++ [.write (s.txPacket ch n) (nextWrite s.wrAnswers s.draws).1]
        cause := match (nextWrite s.wrAnswers s.draws).1 with | .ok => .cNone | .nack => .txNack
        res := match (nextWrite s.wrAnswers s.draws).1 with | .ok => .ok | .nack => .fault
        rdata := 0 } := by
  unfold State.send
  simp only [State.tWrite_eq]
  have h : nextWrite (({ s.begin.dropPacket with rxfsm := .idle } : State).seqWrite ch.toNat
      (s.seqRead ch.toNat + 1)).wrAnswers (({ s.begin.dropPacket with rxfsm := .idle } : State).seqWrite ch.toNat
      (s.seqRead ch.toNat + 1)).draws = nextWrite s.wrAnswers s.draws := rfl
  rw [h]
  rcases nextWrite s.wrAnswers s.draws with ⟨_ | _, w, d⟩ <;> rfl

/-- A counter after a write to counter `c` (10_state.md R21: none aliases another). -/
theorem State.seqRead_setIfInBounds {s t : State} {c : Nat} {v : Byte} (h : t.seq = s.seq.setIfInBounds c v) (hc : c < 6)
    (d : Nat) : t.seqRead d = if d = c then v else s.seqRead d := by
  unfold State.seqRead
  rw [h]
  by_cases hd : d = c
  · subst hd; simp [hc]
  · simp [hd, Vector.getElem?_setIfInBounds_ne (Ne.symm hd)]

end Sys2Proof.Machine
end

