-- ==== Sys2Proof/Laws/PerInstr.lean ====
section
/-! SUPPORT. Per instruction: the encoder's word lies in the instruction's own row of spec/opcode_table.json. -/

namespace Sys2Proof.Laws.EncodingMatchesTable

open Sys2Proof

/-- The operation code of a host operation's row (30_encoding.md R88). -/
def hostCode : Instr → Option Nat
  | .connect => some 0x00
  | .send _ _ => some 0x01
  | .recv => some 0x02
  | .parse => some 0x03
  | .ldb _ => some 0x04
  | .stb _ _ => some 0x05
  | .rdsr _ => some 0x06
  | .cvt _ _ => some 0x07
  | .getr _ _ => some 0x08
  | .getf _ _ => some 0x09
  | .geta _ => some 0x0A
  | .gett _ => some 0x0B
  | .pktCmd => none
  | .pktExe => none
  | .pktCtlProdid => none
  | .pktCtlCmdresp => none
  | .pktCtlFrsresp => none
  | .pktCtlOther => none
  | .pktRptBasets => none
  | .pktRptOther => none
  | .pktWake => none
  | .pktGyro => none
  | .pktBadchan => none
  | .rptAcc => none
  | .rptLin => none
  | .rptGyr => none
  | .rptMag => none
  | .rptRv => none
  | .rptRvv1 => none
  | .rptRvv2 => none
  | .rptRvv3 => none
  | .rptStep => none
  | .rptStab => none
  | .rptAct => none
  | .rptRawacc => none
  | .rptRawgyr => none
  | .rptRawmag => none
  | .rptOther => none

/-- The word is selected by the row of the opcode table that stands for the instruction (R96). A report row is looked at
with the 13 payload bytes it requires. -/
def InRow (cfg : Config) (i : Instr) : Encoded → Prop
  | .host c => hostCode i = some c.op.toNat
  | .packet dw cnt => ∃ r ∈ pktTable cfg, r.1.instr = i ∧ r.2.selects dw.toNat cnt = true
  | .report rid => ∃ r ∈ rptTable cfg, r.1.instr = i ∧ r.2.selects rid.toNat 13 = true

/-- The instruction's encoding lies in its row, under every legal configuration, for every operand. -/
def Statement (i : Instr) : Prop := ∀ cfg : Config, cfg.WellFormed → InRow cfg i (encode cfg i)

/-- A packet word with a parameterised first byte is selected by its row, on either channel that has such rows. -/
theorem param_selects (b : Byte) :
    (TableRow.mk 0xFF00FF0000 (paramPattern 0x0000020000 32 b) 1).selects
      (b ++ 0x00#8 ++ 0x02#8 ++ 0x00#8 ++ 0x05#8).toNat 1 = true ∧
    (TableRow.mk 0xFF00FF0000 (paramPattern 0x0000030000 32 b) 1).selects
      (b ++ 0x00#8 ++ 0x03#8 ++ 0x00#8 ++ 0x05#8).toNat 1 = true := by
  revert b
  decide

theorem report_selects (b : Byte) : (TableRow.mk 0xFF (paramPattern 0 0 b) 13).selects b.toNat 13 = true := by
  revert b
  decide

theorem connect : Statement .connect :=
  fun _ _ => rfl

theorem send (ch : Byte) (n : Half) : Statement (.send ch n) :=
  fun _ _ => rfl

theorem recv : Statement .recv :=
  fun _ _ => rfl

theorem parse : Statement .parse :=
  fun _ _ => rfl

theorem ldb (addr : Half) : Statement (.ldb addr) :=
  fun _ _ => rfl

theorem stb (addr : Half) (byte : Byte) : Statement (.stb addr byte) :=
  fun _ _ => rfl

theorem rdsr (sel : Byte) : Statement (.rdsr sel) :=
  fun _ _ => rfl

theorem cvt (raw : Half) (q : Byte) : Statement (.cvt raw q) :=
  fun _ _ => rfl

theorem getr (slot comp : Byte) : Statement (.getr slot comp) :=
  fun _ _ => rfl

theorem getf (slot comp : Byte) : Statement (.getf slot comp) :=
  fun _ _ => rfl

theorem geta (slot : Byte) : Statement (.geta slot) :=
  fun _ _ => rfl

theorem gett (slot : Byte) : Statement (.gett slot) :=
  fun _ _ => rfl

theorem pktCmd : Statement .pktCmd :=
  fun _ _ => ⟨_, List.mem_of_getElem? (i := 0) rfl, rfl, by decide⟩

theorem pktExe : Statement .pktExe :=
  fun _ _ => ⟨_, List.mem_of_getElem? (i := 1) rfl, rfl, by decide⟩

theorem pktCtlProdid : Statement .pktCtlProdid :=
  fun _ _ => ⟨_, List.mem_of_getElem? (i := 2) rfl, rfl, (param_selects _).1⟩

theorem pktCtlCmdresp : Statement .pktCtlCmdresp :=
  fun _ _ => ⟨_, List.mem_of_getElem? (i := 3) rfl, rfl, (param_selects _).1⟩

theorem pktCtlFrsresp : Statement .pktCtlFrsresp :=
  fun _ _ => ⟨_, List.mem_of_getElem? (i := 4) rfl, rfl, (param_selects _).1⟩

theorem pktCtlOther : Statement .pktCtlOther :=
  fun _ _ => ⟨_, List.mem_of_getElem? (i := 5) rfl, rfl, by decide⟩

theorem pktRptBasets : Statement .pktRptBasets :=
  fun _ _ => ⟨_, List.mem_of_getElem? (i := 6) rfl, rfl, (param_selects _).2⟩

theorem pktRptOther : Statement .pktRptOther :=
  fun _ _ => ⟨_, List.mem_of_getElem? (i := 7) rfl, rfl, by decide⟩

theorem pktWake : Statement .pktWake :=
  fun _ _ => ⟨_, List.mem_of_getElem? (i := 8) rfl, rfl, by decide⟩

theorem pktGyro : Statement .pktGyro :=
  fun _ _ => ⟨_, List.mem_of_getElem? (i := 9) rfl, rfl, by decide⟩

theorem pktBadchan : Statement .pktBadchan :=
  fun _ _ => ⟨_, List.mem_of_getElem? (i := 10) rfl, rfl, by decide⟩

theorem rptAcc : Statement .rptAcc :=
  fun _ _ => ⟨_, List.mem_of_getElem? (i := 0) rfl, rfl, report_selects _⟩

theorem rptLin : Statement .rptLin :=
  fun _ _ => ⟨_, List.mem_of_getElem? (i := 1) rfl, rfl, report_selects _⟩

theorem rptGyr : Statement .rptGyr :=
  fun _ _ => ⟨_, List.mem_of_getElem? (i := 2) rfl, rfl, report_selects _⟩

theorem rptMag : Statement .rptMag :=
  fun _ _ => ⟨_, List.mem_of_getElem? (i := 3) rfl, rfl, report_selects _⟩

theorem rptRv : Statement .rptRv :=
  fun _ _ => ⟨_, List.mem_of_getElem? (i := 4) rfl, rfl, report_selects _⟩

theorem rptRvv1 : Statement .rptRvv1 :=
  fun _ _ => ⟨_, List.mem_of_getElem? (i := 5) rfl, rfl, report_selects _⟩

theorem rptRvv2 : Statement .rptRvv2 :=
  fun _ _ => ⟨_, List.mem_of_getElem? (i := 6) rfl, rfl, report_selects _⟩

theorem rptRvv3 : Statement .rptRvv3 :=
  fun _ _ => ⟨_, List.mem_of_getElem? (i := 7) rfl, rfl, report_selects _⟩

theorem rptStep : Statement .rptStep :=
  fun _ _ => ⟨_, List.mem_of_getElem? (i := 8) rfl, rfl, report_selects _⟩

theorem rptStab : Statement .rptStab :=
  fun _ _ => ⟨_, List.mem_of_getElem? (i := 9) rfl, rfl, report_selects _⟩

theorem rptAct : Statement .rptAct :=
  fun _ _ => ⟨_, List.mem_of_getElem? (i := 10) rfl, rfl, report_selects _⟩

theorem rptRawacc : Statement .rptRawacc :=
  fun _ _ => ⟨_, List.mem_of_getElem? (i := 11) rfl, rfl, report_selects _⟩

theorem rptRawgyr : Statement .rptRawgyr :=
  fun _ _ => ⟨_, List.mem_of_getElem? (i := 12) rfl, rfl, report_selects _⟩

theorem rptRawmag : Statement .rptRawmag :=
  fun _ _ => ⟨_, List.mem_of_getElem? (i := 13) rfl, rfl, report_selects _⟩

theorem rptOther : Statement .rptOther :=
  fun _ _ => ⟨_, List.mem_of_getElem? (i := 14) rfl, rfl, by decide⟩

end Sys2Proof.Laws.EncodingMatchesTable
end

