-- ==== Sys2Proof/Tests/Slice0.lean ====
section
/-! SUPPORT. Tests: the checks refuse ill-formed terms, written-out words decode, one step of each instruction on a small
state (expected values from spec/95_test_vectors.md, its row named in the comment), and for every obligation with
hypotheses a state and operands that meet them. -/

namespace Sys2Proof.Tests

open Sys2Proof Sys2Proof.Machine

/-! ### Helpers -/

/-- What `f` reads of the next state an instruction answers. -/
def after {α : Type} (o : Out) (f : State → α) : Option α :=
  match o with
  | .next t => some (f t)
  | .fault _ => none
  | .refused _ => none

/-- The reset machine with a packet held. -/
def held (h : Header) (payload : List Byte) : State := State.reset.hold h payload

/-- The payload of a sensor report: timestamp byte 0, report ID, status, data bytes. -/
def report (ts rid status : Byte) (words : List Byte) : List Byte := [0xFB, ts, 0, 0, 0, rid, 0x05, status, 0] ++ words

/-- A sensor packet on the Reports channel. -/
def sensor (ts rid status : Byte) (words : List Byte) : State :=
  held ⟨BitVec.ofNat 8 (13 + words.length), 0, 3, 7⟩ (report ts rid status words)

/-- The reset machine with a scripted read stream. -/
def reading (items : List StreamItem) : State := { State.reset with rdStream := items }

/-- The operation code with every operand port 0. -/
def code (op : Byte) : Encoded := .host (HostCmd.mk op 0 0 0 0 0 0 0 0 0)

/-- The accelerometer packet of 95_test_vectors.md S5. -/
def accPacket : State :=
  held ⟨0x13, 0, 3, 7⟩ [0xFB, 0x10, 0x27, 0, 0, 1, 5, 2, 0, 0, 1, 0, 0xFF, 0x9A, 9]

/-- The Gyro-channel packet of 95_test_vectors.md S6. -/
def gyroPacket : State := held ⟨0x12, 0, 5, 0⟩ [1, 0, 2, 0, 3, 0, 4, 0, 5, 0, 6, 0, 7, 0]

/-- The Value Store of 95_test_vectors.md section 2.6, slots `ACC` and `QUAT`. -/
def twoSlots : State :=
  { State.reset with acc := ⟨0x0100, 0xFF00, 0x099A, 2, 0x2710⟩, quat := ⟨0, 0, 0, 0x4000, 0x1000, 3, 0⟩ }

theorem suggested_wellFormed : Config.suggested.WellFormed := (Config.check_iff _).1 (by decide)

/-! ### WellFormed and the configuration check refuse what is ill-formed -/

theorem test_wf_send_channel : Instr.wellFormed Config.suggested (.send 6 0) = false := by decide

theorem test_wf_send_length : Instr.wellFormed Config.suggested (.send 5 271) = false := by decide

theorem test_wf_ldb_address : Instr.wellFormed Config.suggested (.ldb 270) = false := by decide

theorem test_wf_stb_address : Instr.wellFormed Config.suggested (.stb 270 0) = false := by decide

theorem test_wf_rdsr_gap :
    Instr.wellFormed Config.suggested (.rdsr 0x06) = false ∧
    Instr.wellFormed Config.suggested (.rdsr 0x1A) = false :=
  by decide

theorem test_wf_getr_component :
    Instr.wellFormed Config.suggested (.getr 0 3) = false ∧ Instr.wellFormed Config.suggested (.getr 9 1) = false :=
  by decide

theorem test_wf_getr_slot : Instr.wellFormed Config.suggested (.getr 12 0) = false := by decide

theorem test_wf_getf_no_qpoint :
    Instr.wellFormed Config.suggested (.getf 6 0) = false ∧ Instr.wellFormed Config.suggested (.getf 4 5) = false :=
  by decide

theorem test_wf_geta_fgyr :
    Instr.wellFormed Config.suggested (.geta 5) = false ∧ Instr.wellFormed Config.suggested (.geta 12) = false :=
  by decide

theorem test_wf_gett_fgyr :
    Instr.wellFormed Config.suggested (.gett 5) = false ∧ Instr.wellFormed Config.suggested (.gett 12) = false :=
  by decide

theorem test_wf_accepts :
    Instr.wellFormed Config.suggested (.send 5 270) = true ∧
    Instr.wellFormed Config.suggested (.getf 4 4) = true ∧ Instr.wellFormed Config.suggested (.rdsr 0x19) = true :=
  by decide

theorem test_config_capacity : ({ Config.suggested with maxPayload := 271 } : Config).check = false := by decide

theorem test_config_limit : ({ Config.suggested with tMax := 3 } : Config).check = false := by decide

theorem test_config_control_ids :
    ({ Config.suggested with ridCommandResponse := 0xF8 } : Config).check = false :=
  by decide

theorem test_config_sensor_ids : ({ Config.suggested with ridAct := 0x01 } : Config).check = false := by decide

theorem test_config_returned_zero : ({ Config.suggested with ridGirv := 0 } : Config).check = false := by decide

theorem test_config_qpoint : ({ Config.suggested with qpRot := 150 } : Config).check = false := by decide

theorem test_config_selector_low :
    ({ Config.suggested with scalStep := ⟨0, .full⟩ } : Config).check = false :=
  by decide

theorem test_config_selector_high :
    ({ Config.suggested with scalAct := ⟨6, .hi⟩ } : Config).check = false :=
  by decide

theorem test_config_suggested : Config.suggested.check = true := by decide

/-! ### Words written out from the encodings decode (30_encoding.md R76, R80, R88) -/

theorem test_decode_connect : decode Config.suggested (code 0x00) = .ok .connect := by decide

theorem test_decode_send :
    decode Config.suggested (.host (HostCmd.mk 0x01 2 0x010F 0 0 0 0 0 0 0)) = .ok (.send 2 271) :=
  by decide

theorem test_decode_recv : decode Config.suggested (code 0x02) = .ok .recv := by decide

theorem test_decode_parse : decode Config.suggested (code 0x03) = .ok .parse := by decide

theorem test_decode_ldb :
    decode Config.suggested (.host (HostCmd.mk 0x04 0 0 0x010D 0 0 0 0 0 0)) = .ok (.ldb 269) :=
  by decide

theorem test_decode_stb :
    decode Config.suggested (.host (HostCmd.mk 0x05 0 0 4 0xF9 0 0 0 0 0)) = .ok (.stb 4 0xF9) :=
  by decide

theorem test_decode_rdsr :
    decode Config.suggested (.host (HostCmd.mk 0x06 0 0 0 0 0x15 0 0 0 0)) = .ok (.rdsr 0x15) :=
  by decide

theorem test_decode_cvt :
    decode Config.suggested (.host (HostCmd.mk 0x07 0 0 0 0 0 0x8000 14 0 0)) = .ok (.cvt 0x8000 14) :=
  by decide

theorem test_decode_getr :
    decode Config.suggested (.host (HostCmd.mk 0x08 0 0 0 0 0 0 0 6 2)) = .ok (.getr 6 2) :=
  by decide

theorem test_decode_getf :
    decode Config.suggested (.host (HostCmd.mk 0x09 0 0 0 0 0 0 0 4 3)) = .ok (.getf 4 3) :=
  by decide

theorem test_decode_geta :
    decode Config.suggested (.host (HostCmd.mk 0x0A 0 0 0 0 0 0 0 11 0)) = .ok (.geta 11) :=
  by decide

theorem test_decode_gett :
    decode Config.suggested (.host (HostCmd.mk 0x0B 0 0 0 0 0 0 0 10 0)) = .ok (.gett 10) :=
  by decide

theorem test_decode_unknown :
    decode Config.suggested (code 0x0C) = .error (.unknownOp 0x0C) ∧
    decode Config.suggested (code 0xFF) = .error (.unknownOp 0xFF) :=
  by decide

theorem test_decode_cmd : decode Config.suggested (.packet 0xFB00000005 1) = .ok .pktCmd := by decide

theorem test_decode_exe : decode Config.suggested (.packet 0x0100010006 2) = .ok .pktExe := by decide

theorem test_decode_prodid : decode Config.suggested (.packet 0xF800020007 3) = .ok .pktCtlProdid := by decide

theorem test_decode_cmdresp : decode Config.suggested (.packet 0xF105028130 270) = .ok .pktCtlCmdresp := by decide

theorem test_decode_frsresp : decode Config.suggested (.packet 0xF300020006 2) = .ok .pktCtlFrsresp := by decide

theorem test_decode_ctl_other : decode Config.suggested (.packet 0xFB00020005 1) = .ok .pktCtlOther := by decide

theorem test_decode_ctl_empty : decode Config.suggested (.packet 0xF801020004 0) = .ok .pktCtlOther := by decide

theorem test_decode_basets : decode Config.suggested (.packet 0xFB07030013 15) = .ok .pktRptBasets := by decide

theorem test_decode_pkt_rpt_other : decode Config.suggested (.packet 0x0100030005 1) = .ok .pktRptOther := by decide

theorem test_decode_rpt_empty : decode Config.suggested (.packet 0xFB01038004 0) = .ok .pktRptOther := by decide

theorem test_decode_wake : decode Config.suggested (.packet 0xFB00040013 15) = .ok .pktWake := by decide

theorem test_decode_gyro : decode Config.suggested (.packet 0x0000050012 14) = .ok .pktGyro := by decide

theorem test_decode_badchan : decode Config.suggested (.packet 0xFB00060005 1) = .ok .pktBadchan := by decide

theorem test_decode_rpt_acc : decode Config.suggested (.report 0x01) = .ok .rptAcc := by decide

theorem test_decode_rpt_lin : decode Config.suggested (.report 0x04) = .ok .rptLin := by decide

theorem test_decode_rpt_gyr : decode Config.suggested (.report 0x02) = .ok .rptGyr := by decide

theorem test_decode_rpt_mag : decode Config.suggested (.report 0x03) = .ok .rptMag := by decide

theorem test_decode_rpt_rv : decode Config.suggested (.report 0x05) = .ok .rptRv := by decide

theorem test_decode_rpt_rvv1 : decode Config.suggested (.report 0x08) = .ok .rptRvv1 := by decide

theorem test_decode_rpt_rvv2 : decode Config.suggested (.report 0x09) = .ok .rptRvv2 := by decide

theorem test_decode_rpt_rvv3 : decode Config.suggested (.report 0x28) = .ok .rptRvv3 := by decide

theorem test_decode_rpt_step : decode Config.suggested (.report 0x11) = .ok .rptStep := by decide

theorem test_decode_rpt_stab : decode Config.suggested (.report 0x13) = .ok .rptStab := by decide

theorem test_decode_rpt_act : decode Config.suggested (.report 0x1E) = .ok .rptAct := by decide

theorem test_decode_rpt_rawacc : decode Config.suggested (.report 0x14) = .ok .rptRawacc := by decide

theorem test_decode_rpt_rawgyr : decode Config.suggested (.report 0x15) = .ok .rptRawgyr := by decide

theorem test_decode_rpt_rawmag : decode Config.suggested (.report 0x16) = .ok .rptRawmag := by decide

theorem test_decode_rpt_other : decode Config.suggested (.report 0x2A) = .ok .rptOther := by decide

theorem test_table_word_packet :
    decodeTableWord 40 0x0000050000 = some .pktGyro ∧ decodeTableWord 40 0xFB00030000 = some .pktRptBasets :=
  by decide

theorem test_table_word_host :
    decodeTableWord 8 0x0B = some (.gett 0) ∧ decodeTableWord 8 0x1E =
      some .rptAct ∧ decodeTableWord 8 0x100 = none :=
  by decide

/-- 30_encoding.md R83, 40_framer_tx.md R107; 95_test_vectors.md X9. -/
theorem test_header_build :
    Header.build 2 270 9 = ⟨0x12, 0x01, 2, 9⟩ ∧ (Header.mk 0x30 0x81 2 5).declaredLength = 304 :=
  by decide

/-! ### One step of each instruction -/

/-- 95_test_vectors.md H14. -/
theorem test_connect :
    after (exec .connect ({ accPacket with seq := #v[1, 2, 3, 4, 5, 6], lastCls := .sensor }))
      (fun t => (t.seq, t.rxvalid)) =
      some (#v[0, 0, 0, 0, 0, 0], false) :=
  by decide

/-- 95_test_vectors.md T1. -/
theorem test_send_bytes :
    after (exec (.send 2 2) ({ State.reset with buf := [(0, 0xF9), (1, 0x00)], wrAnswers := [.ok] }))
      (fun t => (t.trace, t.seq)) =
      some ([.write [0x06, 0x00, 0x02, 0x00, 0xF9, 0x00] .ok], #v[0, 0, 1, 0, 0, 0]) :=
  by decide

/-- 95_test_vectors.md T4 (wrap), with the `nack` of T2. -/
theorem test_send_wrap :
    after (exec (.send 5 1) ({ State.reset with seq := #v[0, 0, 0, 0, 0, 255], buf := [(0, 0xAA)], wrAnswers := [.nack] }))
      (fun t => (t.trace, t.seq, t.cause)) =
      some ([.write [0x05, 0x00, 0x05, 0xFF, 0xAA] .nack], #v[0, 0, 0, 0, 0, 0], .txNack) :=
  by decide

/-- 95_test_vectors.md X3. -/
theorem test_recv_short :
    after (exec .recv (reading [.byte 3, .byte 0x80, .byte 2, .byte 9]))
      (fun t => (t.res, t.cause, t.rxhdr, t.rxchan)) =
      some (.none, .shortLen, ⟨3, 0x80, 2, 9⟩, 0) :=
  by decide

/-- Like 95_test_vectors.md X5, X6, X11: the channel is not judged, the stream stands behind the packet. -/
theorem test_recv_packet :
    after (exec .recv ({ reading ([0x08, 0, 9, 5, 0x10, 0x11, 0x12, 0x13].map .byte ++ [.fault])
        with cfg := { Config.suggested with tMax := 4 } }))
      (fun t => (t.rxchan, t.rxlen, t.buf, t.rdStream)) =
      some (9, 4, [(0, 0x10), (1, 0x11), (2, 0x12), (3, 0x13)], [.fault]) :=
  by decide

/-- 95_test_vectors.md S5, F1. -/
theorem test_parse_acc :
    after (exec .parse (accPacket)) (fun t => (t.rdata, t.acc)) = some (1, ⟨0x0100, 0xFF00, 0x099A, 2, 0x2710⟩) :=
  by decide

/-- 95_test_vectors.md D1v. -/
theorem test_parse_nothing :
    after (exec .parse (State.reset)) (fun t => (t.res, t.cause, t.lastCls)) = some (.none, .noPacket, .none) :=
  by decide

/-- 95_test_vectors.md H3. -/
theorem test_ldb :
    after (exec (.ldb 269) ({ State.reset with buf := [(0, 1), (269, 0x55)] })) (fun t => t.rdata) = some 0x55 :=
  by decide

/-- 95_test_vectors.md H5. -/
theorem test_ldb_refused :
    after (exec (.ldb 270) (State.reset)) (fun t => (t.res, t.cause)) = some (.refused, .refused) :=
  by decide

/-- 95_test_vectors.md P5. -/
theorem test_stb :
    after (exec (.stb 5 0x04) (accPacket)) (fun t => (t.buf.length, t.readByte 5, t.rxvalid)) =
      some (15, 0x04, true) :=
  by decide

/-- 95_test_vectors.md H11. -/
theorem test_rdsr_cause :
    after (exec (.rdsr 0x15) ({ State.reset with cause := .zeroLen })) (fun t => (t.rdata, t.cause)) =
      some (4, .cNone) :=
  by decide

/-- 95_test_vectors.md H9. -/
theorem test_rdsr_header :
    after (exec (.rdsr 0x19) ({ State.reset with rxhdr := ⟨0x30, 0x81, 2, 5⟩ })) (fun t => t.rdata) =
      some 0x05028130 :=
  by decide

/-- 95_test_vectors.md section 2.5. -/
theorem test_cvt : after (exec (.cvt 0x099A 8) (State.reset)) (fun t => t.rdata) = some 0x4119A000 := by decide

/-- 95_test_vectors.md section 2.5. -/
theorem test_cvt_subnormal :
    after (exec (.cvt 0x8000 149) (State.reset)) (fun t => t.rdata) = some 0x80008000 :=
  by decide

/-- 95_test_vectors.md section 2.6: zero-extended. -/
theorem test_getr : after (exec (.getr 0 1) (twoSlots)) (fun t => t.rdata) = some 0x0000FF00 := by decide

/-- 95_test_vectors.md section 2.6. -/
theorem test_getf : after (exec (.getf 0 1) (twoSlots)) (fun t => t.rdata) = some 0xBF800000 := by decide

/-- 95_test_vectors.md section 2.6: `QP_RADACC`, not `QP_ROT`. -/
theorem test_getf_radacc : after (exec (.getf 4 4) (twoSlots)) (fun t => t.rdata) = some 0x3F800000 := by decide

/-- 95_test_vectors.md section 2.6. -/
theorem test_geta : after (exec (.geta 4) (twoSlots)) (fun t => t.rdata) = some 3 := by decide

/-- 95_test_vectors.md section 2.6. -/
theorem test_gett : after (exec (.gett 0) (twoSlots)) (fun t => t.rdata) = some 0x2710 := by decide

/-- 95_test_vectors.md D2v. -/
theorem test_parse_cmd :
    after (exec .parse (held ⟨5, 0, 0, 0⟩ [0xFB])) (fun t => (t.res, t.cause, t.lastCls, t.lastRid)) =
      some (.none, .noDecoder, .ignored, 0) :=
  by decide

/-- 95_test_vectors.md D3v. -/
theorem test_parse_exe :
    after (exec .parse (held ⟨6, 0, 1, 0⟩ [1, 2])) (fun t => (t.res, t.cause, t.lastCls, t.lastRid)) =
      some (.none, .noDecoder, .ignored, 0) :=
  by decide

/-- 95_test_vectors.md D4v. -/
theorem test_parse_prodid :
    after (exec .parse (held ⟨7, 0, 2, 0⟩ [0xF8, 1, 2])) (fun t => (t.res, t.cause, t.lastCls, t.lastRid)) =
      some (.ok, .cNone, .prodid, 0xF8) :=
  by decide

/-- 95_test_vectors.md D5v. -/
theorem test_parse_cmdresp :
    after (exec .parse (held ⟨6, 0, 2, 0⟩ [0xF1, 0])) (fun t => (t.res, t.cause, t.lastCls, t.lastRid)) =
      some (.ok, .cNone, .cmdresp, 0xF1) :=
  by decide

/-- 95_test_vectors.md D6v. -/
theorem test_parse_frsresp :
    after (exec .parse (held ⟨6, 0, 2, 0⟩ [0xF3, 0])) (fun t => (t.res, t.cause, t.lastCls, t.lastRid)) =
      some (.ok, .cNone, .frsresp, 0xF3) :=
  by decide

/-- 95_test_vectors.md D8v. -/
theorem test_parse_ctl_other :
    after (exec .parse (held ⟨5, 0, 2, 0⟩ [0xFB])) (fun t => (t.res, t.cause, t.lastCls, t.lastRid)) =
      some (.none, .badRid, .ignored, 0) :=
  by decide

/-- 95_test_vectors.md D9v. -/
theorem test_parse_ctl_empty :
    after (exec .parse (held ⟨4, 0, 2, 1⟩ [])) (fun t => (t.res, t.cause, t.lastCls, t.lastRid)) =
      some (.none, .malformed, .ignored, 0) :=
  by decide

/-- 95_test_vectors.md D11v. -/
theorem test_parse_rpt_other :
    after (exec .parse (held ⟨5, 0, 3, 0⟩ [1])) (fun t => (t.res, t.cause, t.lastCls, t.lastRid)) =
      some (.none, .badRid, .ignored, 0) :=
  by decide

/-- 95_test_vectors.md D10v. -/
theorem test_parse_rpt_empty :
    after (exec .parse (held ⟨4, 0x80, 3, 1⟩ [])) (fun t => (t.res, t.cause, t.lastCls, t.lastRid)) =
      some (.none, .malformed, .ignored, 0) :=
  by decide

/-- 95_test_vectors.md D12v. -/
theorem test_parse_wake :
    after (exec .parse (held ⟨0x13, 0, 4, 0⟩ (report 0 1 3 [1, 0, 2, 0, 3, 0])))
      (fun t => (t.res, t.cause, t.lastCls, t.lastRid)) =
      some (.none, .noDecoder, .ignored, 0) :=
  by decide

/-- 95_test_vectors.md D14v. -/
theorem test_parse_badchan :
    after (exec .parse (held ⟨4, 0, 0xFF, 0⟩ [])) (fun t => (t.res, t.cause, t.lastCls, t.lastRid)) =
      some (.none, .badChan, .ignored, 0) :=
  by decide

/-- 95_test_vectors.md S6, G1v. -/
theorem test_parse_gyro :
    after (exec .parse ({ gyroPacket with quat := ⟨9, 9, 9, 9, 0x1000, 3, 8⟩ }))
      (fun t => (t.rdata, t.quat, t.fgyr)) =
      some (0x2A, ⟨1, 2, 3, 4, 0x1000, 3, 8⟩, ⟨5, 6, 7⟩) :=
  by decide

/-- 95_test_vectors.md G2v. -/
theorem test_parse_gyro_short :
    after (exec .parse (held ⟨0x11, 0, 5, 0⟩ (List.replicate 13 0))) (fun t => (t.res, t.cause, t.lastCls)) =
      some (.none, .malformed, .gyro) :=
  by decide

/-- 95_test_vectors.md F17 (with a known identifier: the length is judged first). -/
theorem test_basets_short :
    after (exec .parse (held ⟨0x10, 0, 3, 0⟩ [0xFB, 0, 0, 0, 0, 1, 0, 0, 0, 0, 0, 0]))
      (fun t => (t.res, t.cause, t.lastCls, t.lastRid)) =
      some (.none, .malformed, .sensor, 0) :=
  by decide

/-- 95_test_vectors.md F15. -/
theorem test_rpt_acc_two_words :
    after (exec .rptAcc (sensor 0 1 0xFE [0x11, 0x11, 0x22, 0x22])) (fun t => t.acc) =
      some ⟨0x1111, 0x2222, 0, 2, 0⟩ :=
  by decide

/-- 95_test_vectors.md F2. -/
theorem test_rpt_lin :
    after (exec .parse (sensor 0 4 3 [0x80, 0, 0, 0, 0x80, 0xFF])) (fun t => (t.rdata, t.lin)) =
      some (4, ⟨0x0080, 0x0000, 0xFF80, 3, 0⟩) :=
  by decide

/-- 95_test_vectors.md F3. -/
theorem test_rpt_gyr :
    after (exec .parse (sensor 1 2 1 [0, 2, 0, 0xFE, 1, 0])) (fun t => (t.rdata, t.gyr)) =
      some (2, ⟨0x0200, 0xFE00, 0x0001, 1, 1⟩) :=
  by decide

/-- 95_test_vectors.md F4. -/
theorem test_rpt_mag :
    after (exec .parse (held ⟨0x13, 0, 3, 0⟩ [0xFB, 0xFF, 0xFF, 0xFF, 0xFF, 3, 0, 0, 0, 0x10, 0, 0xF0, 0xFF, 0, 0x80]))
      (fun t => (t.rdata, t.mag)) =
      some (3, ⟨0x0010, 0xFFF0, 0x8000, 0, 0xFFFFFFFF⟩) :=
  by decide

/-- 95_test_vectors.md F5. -/
theorem test_rpt_rv :
    after (exec .parse (sensor 0 5 3 [0, 0, 0, 0, 0, 0, 0, 0x40, 0, 0x10])) (fun t => (t.rdata, t.quat)) =
      some (5, ⟨0, 0, 0, 0x4000, 0x1000, 3, 0⟩) :=
  by decide

/-- 95_test_vectors.md F6. -/
theorem test_rpt_rvv1 :
    after (exec .parse (sensor 0 8 2 [0, 0x20, 0, 0xE0, 0, 0, 0, 0x40, 0xAA])) (fun t => (t.rdata, t.quat)) =
      some (8, ⟨0x2000, 0xE000, 0, 0x4000, 0, 2, 0⟩) :=
  by decide

/-- 95_test_vectors.md F7. -/
theorem test_rpt_rvv2 :
    after (exec .parse (sensor 0 9 3 [0, 0, 0, 0, 0, 0, 0, 0x40, 0, 0x10])) (fun t => (t.rdata, t.quat)) =
      some (9, ⟨0, 0, 0, 0x4000, 0x1000, 3, 0⟩) :=
  by decide

/-- 95_test_vectors.md F8. -/
theorem test_rpt_rvv3 :
    after (exec .parse (sensor 0 0x28 3 [0, 0, 0, 0, 0, 0, 0, 0x40, 0, 0x10])) (fun t => (t.rdata, t.quat)) =
      some (0x28, ⟨0, 0, 0, 0x4000, 0x1000, 3, 0⟩) :=
  by decide

/-- 95_test_vectors.md F9. -/
theorem test_rpt_step :
    after (exec .parse (sensor 0 0x11 3 [0, 0, 0, 0, 0x2A, 0])) (fun t => (t.rdata, t.stepCnt)) =
      some (0x11, ⟨0x002A, 3, 0⟩) :=
  by decide

/-- 95_test_vectors.md F10. -/
theorem test_rpt_stab :
    after (exec .parse (sensor 0 0x13 0 [3, 0, 0, 0])) (fun t => (t.rdata, t.stab)) =
      some (0x13, ⟨0x0003, 0, 0⟩) :=
  by decide

/-- 95_test_vectors.md F11. -/
theorem test_rpt_act :
    after (exec .parse (sensor 0 0x1E 1 [0, 4, 0, 0])) (fun t => (t.rdata, t.act)) = some (0x1E, ⟨0x0004, 1, 0⟩) :=
  by decide

/-- 95_test_vectors.md F12. -/
theorem test_rpt_rawacc :
    after (exec .parse (sensor 0 0x14 0 [0x34, 0x12, 0x78, 0x56, 0xBC, 0x9A])) (fun t => (t.rdata, t.rawacc)) =
      some (0x14, ⟨0x1234, 0x5678, 0x9ABC, 0, 0⟩) :=
  by decide

/-- 95_test_vectors.md F13. -/
theorem test_rpt_rawgyr :
    after (exec .parse (sensor 0 0x15 0 [0x34, 0x12, 0x78, 0x56, 0xBC, 0x9A])) (fun t => (t.rdata, t.rawgyr)) =
      some (0x15, ⟨0x1234, 0x5678, 0x9ABC, 0, 0⟩) :=
  by decide

/-- 95_test_vectors.md F14. -/
theorem test_rpt_rawmag :
    after (exec .parse (sensor 0 0x16 0 [0x34, 0x12, 0x78, 0x56, 0xBC, 0x9A])) (fun t => (t.rdata, t.rawmag)) =
      some (0x16, ⟨0x1234, 0x5678, 0x9ABC, 0, 0⟩) :=
  by decide

/-- 95_test_vectors.md F18. -/
theorem test_rpt_other :
    after (exec .parse (sensor 0 0x2A 0 [1, 0, 2, 0, 3, 0])) (fun t => (t.res, t.cause, t.lastCls, t.lastRid)) =
      some (.none, .badRid, .sensor, 0) :=
  by decide

theorem test_step_runs_the_word :
    after (step (State.reset.withFetchWord 40 0x0000050000)) (fun t => (t.rdata, t.fgyr)) =
      some (0x2A, ⟨0, 0, 0⟩) :=
  by decide

/-- 95_test_vectors.md H16. -/
theorem test_step_unknown_code :
    after (step (State.reset.present (plainCmd 0x0C))) (fun t => (t.res, t.cause)) = some (.refused, .refused) :=
  by decide

theorem test_step_power_on :
    after (step { accPacket with inputs := [.powerOn] }) (fun t => (t.rxvalid, t.buf, t.epoch)) =
      some (false, [], 1) :=
  by decide

theorem test_step_bad_config :
    step { State.reset with cfg := { Config.suggested with tMax := 3 } } = .refused .badConfig :=
  rfl

/-- 30_encoding.md R94. -/
theorem test_sendp :
    sendpInputs 2 [0xFD, 0x01] = [.op (HostCmd.mk 0x05 0 0 0 0xFD 0 0 0 0 0), .op (HostCmd.mk 0x05 0 0 1 0x01 0 0 0 0 0),
    .op (HostCmd.mk 0x01 2 2 0 0 0 0 0 0 0)] :=
  by decide

/-! ### The hypotheses of the obligations are met -/

theorem witness_DecodingAnEncodedInstructionGivesItBack :
    Config.suggested.WellFormed :=
  suggested_wellFormed

theorem witness_PacketAndReportWordsTakeTheFirstTableRow :
    13 ≤ 13 ∧ 13 ≤ 270 :=
  by decide

theorem witness_StepRunsTheDecodedOperation :
    (State.reset.present (plainCmd 0x03)).cfg.WellFormed ∧
    (State.reset.present (plainCmd 0x03)).inputs = .op (plainCmd 0x03) :: [] ∧
    (State.reset.present (plainCmd 0x03)).rxfsm ≠ .awaitingHeader ∧
    (State.reset.present (plainCmd 0x03)).rxfsm ≠ .awaitingPayload ∧ decodeHost (plainCmd 0x03) = .ok .parse :=
  ⟨suggested_wellFormed, rfl, by decide, by decide, by decide⟩

theorem witness_StepRefusesAnUnknownOperationCode_first :
    (State.reset.present (plainCmd 0x0C)).cfg.WellFormed ∧
    (State.reset.present (plainCmd 0x0C)).inputs = .op (plainCmd 0x0C) :: [] ∧
    (State.reset.present (plainCmd 0x0C)).rxfsm ≠ .awaitingHeader ∧
    (State.reset.present (plainCmd 0x0C)).rxfsm ≠ .awaitingPayload ∧ 0x0C ≤ (plainCmd 0x0C).op.toNat :=
  ⟨suggested_wellFormed, rfl, by decide, by decide, by decide⟩

theorem witness_StepRefusesAnUnknownOperationCode_last :
    (State.reset.present (plainCmd 0xFF)).cfg.WellFormed ∧
    (State.reset.present (plainCmd 0xFF)).inputs = .op (plainCmd 0xFF) :: [] ∧
    (State.reset.present (plainCmd 0xFF)).rxfsm ≠ .awaitingHeader ∧
    (State.reset.present (plainCmd 0xFF)).rxfsm ≠ .awaitingPayload ∧ 0x0C ≤ (plainCmd 0xFF).op.toNat :=
  ⟨suggested_wellFormed, rfl, by decide, by decide, by decide⟩

theorem witness_StepWaitsWhenNothingIsPresented :
    State.reset.cfg.WellFormed ∧ State.reset.inputs = [] :=
  ⟨suggested_wellFormed, rfl⟩

theorem witness_StepStopsExactlyInsideAnotherOperation :
    ({ State.reset.present (plainCmd 0x03) with rxfsm := .awaitingPayload } : State).cfg.WellFormed ∧
    step { State.reset.present (plainCmd 0x03) with rxfsm := .awaitingPayload } = .fault .operationInProgress :=
  ⟨suggested_wellFormed, rfl⟩

theorem witness_ParseRunsTheClassOfTheDecodeWord :
    accPacket.rxvalid = true ∧ accPacket.rxchan = accPacket.rxhdr.b2 :=
  by decide

theorem witness_BothResetEventsLeaveTheRegisterTable :
    ({ accPacket with inputs := [.powerOn] } : State).inputs = .powerOn :: [] ∧
    (∃ t, step { accPacket with inputs := [.powerOn] } = .next t) ∧
    ∃ t, exec .connect accPacket = .next t :=
  ⟨rfl, ⟨_, rfl⟩, _, rfl⟩

theorem witness_PowerOnKeepsThePendingTransportBytes :
    ({ accPacket with inputs := [.powerOn] } : State).cfg.WellFormed ∧
    ({ accPacket with inputs := [.powerOn] } : State).inputs = .powerOn :: [] :=
  ⟨suggested_wellFormed, rfl⟩

/-- A packet is held, with its bytes in `BUF` and an operation presented: the invariant holds there. -/
theorem accPacket_inv : (accPacket.present (plainCmd 0x02)).Inv where
  config := suggested_wellFormed
  packet := ⟨by decide, by decide, by decide, by decide, by decide, by decide, by decide⟩
  buffer := ⟨by decide, by decide⟩
  boundary := by decide

theorem witness_EveryStepKeepsTheInvariant :
    (accPacket.present (plainCmd 0x02)).Inv ∧ ∃ t, step (accPacket.present (plainCmd 0x02)) = .next t :=
  ⟨accPacket_inv, _, rfl⟩

theorem witness_NoStepStopsUnderTheInvariant :
    (accPacket.present (plainCmd 0x02)).Inv :=
  accPacket_inv

theorem witness_OnlySendAndConnectWriteTheCounters :
    (∃ t, exec .recv accPacket = .next t) ∧ Instr.recv ≠ .connect ∧ ∀ ch n, Instr.recv ≠ .send ch n :=
  ⟨⟨_, rfl⟩, by decide, fun _ _ => Instr.noConfusion⟩

theorem witness_OnlyParseWritesTheValueStore :
    decodeHost (plainCmd 0x02) = .ok .recv ∧ Instr.recv ≠ .parse ∧ ∃ t, exec .recv accPacket = .next t :=
  ⟨by decide, by decide, _, rfl⟩

theorem witness_OnlyRecvAndStbWriteTheBuffer :
    (∃ t, exec (.send 2 1) accPacket = .next t) ∧ Instr.send 2 1 ≠ .recv ∧ ∀ a b, Instr.send 2 1 ≠ .stb a b :=
  ⟨⟨_, rfl⟩, by decide, fun _ _ => Instr.noConfusion⟩

theorem witness_HeldPacketRegistersMoveInThreeOperationsOnly :
    (∃ t, exec .parse accPacket = .next t) ∧ Instr.parse ≠ .connect ∧ Instr.parse ≠ .recv ∧
    ∀ ch n, Instr.parse ≠ .send ch n :=
  ⟨⟨_, rfl⟩, by decide, by decide, fun _ _ => Instr.noConfusion⟩

theorem witness_HeldPacketRegistersMoveInThreeOperationsOnly_send :
    (∃ t, exec (.send 2 1) accPacket = .next t) ∧ Instr.send 2 1 ≠ .connect ∧ Instr.send 2 1 ≠ .recv :=
  ⟨⟨_, rfl⟩, by decide, by decide⟩

theorem witness_OnlySendAndRecvAskTheTransport :
    (∃ t, exec .parse accPacket = .next t) ∧ Instr.parse ≠ .recv ∧ ∀ ch n, Instr.parse ≠ .send ch n :=
  ⟨⟨_, rfl⟩, by decide, fun _ _ => Instr.noConfusion⟩

theorem witness_RefusedExactlyForIllegalOperands :
    Instr.wellFormed Config.suggested (.send 6 0) = false ∧ Instr.wellFormed Config.suggested (.send 5 270) = true ∧
    ∀ raw q, Instr.send 5 270 ≠ .cvt raw q :=
  ⟨by decide, by decide, fun _ _ => Instr.noConfusion⟩

theorem witness_SendWritesOnePacketAndCountsIt :
    (5 : Byte).toNat ≤ 5 ∧ (270 : Half).toNat ≤ accPacket.cfg.maxPayload ∧
    (nextWrite [.ok] 0).1 = .ok ∧ (nextWrite [.nack] 0).1 = .nack :=
  by decide

theorem witness_SendWithAnIllegalOperandIsRefused :
    5 < (6 : Byte).toNat ∧ State.reset.cfg.maxPayload < (271 : Half).toNat :=
  by decide

theorem witness_SendOfTheEmptyAndTheFullPayload :
    State.reset.cfg.maxPayload = 270 ∧ (0 : Byte).toNat ≤ 5 ∧ (5 : Byte).toNat ≤ 5 :=
  by decide

theorem witness_SequenceBytesCountUpPerChannel :
    ∀ p ∈ [((2 : Byte), (0 : Half)), (3, 0), (2, 270), (5, 1)], p.1.toNat ≤ 5 ∧
    p.2.toNat ≤ State.reset.cfg.maxPayload :=
  by
  simp [State.reset, State.afterPowerOn, Config.suggested]

theorem witness_RecvOfAZeroLengthHeaderReturnsNone :
    takeBytes 4 (reading [.byte 0, .byte 0x80, .byte 5, .byte 0x2C]).rdStream (reading []).draws =
    (some [0, 0x80, 5, 0x2C], [], 0) ∧ (0 : Byte) = 0 ∧ (0x80 : Byte).toNat % 128 = 0 :=
  by decide

theorem witness_RecvOfAShortLengthHeaderReturnsNone_1 :
    takeBytes 4 (reading [.byte 1, .byte 0x80, .byte 2, .byte 9]).rdStream (reading []).draws =
    (some [1, 0x80, 2, 9], [], 0) ∧ 1 ≤ (1 : Byte).toNat ∧ (1 : Byte).toNat ≤ 3 ∧ (0x80 : Byte).toNat % 128 = 0 :=
  by decide

theorem witness_RecvOfAShortLengthHeaderReturnsNone_3 :
    takeBytes 4 (reading [.byte 3, .byte 0x80, .byte 2, .byte 9]).rdStream (reading []).draws =
    (some [3, 0x80, 2, 9], [], 0) ∧ 1 ≤ (3 : Byte).toNat ∧ (3 : Byte).toNat ≤ 3 ∧ (0x80 : Byte).toNat % 128 = 0 :=
  by decide

theorem witness_RecvWithAHeaderFaultTimesOut :
    (takeBytes 4 (reading [.byte 1, .byte 2, .byte 3, .fault]).rdStream 0).1 = none :=
  by decide

theorem witness_RecvHoldsAWholePacket_0 :
    (reading (([4, 0, 3, 7] ++ List.replicate 0 (0 : Byte)).map .byte ++ [.fault])).cfg.WellFormed ∧
    (reading (([4, 0, 3, 7] ++ List.replicate 0 (0 : Byte)).map .byte ++ [.fault])).rdStream =
      ([4, 0, 3, 7] ++ List.replicate 0 (0 : Byte)).map .byte ++ [.fault] ∧
    (4 : Byte).toNat + 256 * ((0 : Byte).toNat % 128) = (List.replicate 0 (0 : Byte)).length + 4 :=
  ⟨suggested_wellFormed, rfl, by rw [List.length_replicate]; decide⟩

theorem witness_RecvHoldsAWholePacket_270 :
    (reading (([0x12, 0x01, 3, 7] ++ List.replicate 270 (0 : Byte)).map .byte ++ [.fault])).cfg.WellFormed ∧
    (reading (([0x12, 0x01, 3, 7] ++ List.replicate 270 (0 : Byte)).map .byte ++ [.fault])).rdStream =
      ([0x12, 0x01, 3, 7] ++ List.replicate 270 (0 : Byte)).map .byte ++ [.fault] ∧
    (0x12 : Byte).toNat + 256 * ((0x01 : Byte).toNat % 128) = (List.replicate 270 (0 : Byte)).length + 4 :=
  ⟨suggested_wellFormed, rfl, by rw [List.length_replicate]; decide⟩

theorem witness_RecvHoldsAWholePacket_271 :
    (reading (([0x13, 0x81, 3, 7] ++ List.replicate 271 (0 : Byte)).map .byte ++ [.fault])).cfg.WellFormed ∧
    (reading (([0x13, 0x81, 3, 7] ++ List.replicate 271 (0 : Byte)).map .byte ++ [.fault])).rdStream =
      ([0x13, 0x81, 3, 7] ++ List.replicate 271 (0 : Byte)).map .byte ++ [.fault] ∧
    (0x13 : Byte).toNat + 256 * ((0x81 : Byte).toNat % 128) = (List.replicate 271 (0 : Byte)).length + 4 :=
  ⟨suggested_wellFormed, rfl, by rw [List.length_replicate]; decide⟩

theorem witness_RecvWithAPayloadFaultKeepsTheChunksBefore_0 :
    (reading (([5, 0, 3, 7] ++ List.replicate 0 (0 : Byte)).map .byte ++ [.fault])).cfg.WellFormed ∧
    (reading (([5, 0, 3, 7] ++ List.replicate 0 (0 : Byte)).map .byte ++ [.fault])).rdStream =
      ([5, 0, 3, 7] ++ List.replicate 0 (0 : Byte)).map .byte ++ .fault :: [] ∧
    (5 : Byte).toNat + 256 * ((0 : Byte).toNat % 128) = 1 + 4 ∧ (List.replicate 0 (0 : Byte)).length < 1 :=
  ⟨suggested_wellFormed, rfl, by decide, by decide⟩

theorem witness_RecvWithAPayloadFaultKeepsTheChunksBefore_28 :
    (reading (([0x21, 0, 3, 7] ++ List.replicate 28 (0 : Byte)).map .byte ++ [.fault])).cfg.WellFormed ∧
    (reading (([0x21, 0, 3, 7] ++ List.replicate 28 (0 : Byte)).map .byte ++ [.fault])).rdStream =
      ([0x21, 0, 3, 7] ++ List.replicate 28 (0 : Byte)).map .byte ++ .fault :: [] ∧
    (0x21 : Byte).toNat + 256 * ((0 : Byte).toNat % 128) = 29 + 4 ∧ (List.replicate 28 (0 : Byte)).length < 29 :=
  ⟨suggested_wellFormed, rfl, by decide, by decide⟩

theorem witness_ChunkingLeavesNoTraceInTheState :
    4 ≤ 4 ∧ 4 ≤ 28 ∧ (reading (([9, 0, 3, 7] ++ List.replicate 5 (0 : Byte)).map .byte ++ [])).rdStream =
      ([9, 0, 3, 7] ++ List.replicate 5 (0 : Byte)).map .byte ++ [] ∧
    (9 : Byte).toNat + 256 * ((0 : Byte).toNat % 128) ≤ (List.replicate 5 (0 : Byte)).length + 4 ∧
    ∀ s : State, ∃ t, exec .recv s = .next t :=
  ⟨by decide, by decide, rfl, by decide, fun _ => ⟨_, rfl⟩⟩

theorem witness_TheContinuationFlagIsIgnored :
    (∃ t, exec .recv (reading ([4, 0, 3, 7].map .byte ++ [])) = .next t) ∧
    ∃ t, exec .recv (reading ([4, 0 ^^^ 0x80, 3, 7].map .byte ++ [])) = .next t :=
  ⟨⟨_, rfl⟩, _, rfl⟩

theorem witness_RecvNeitherReadsNorWritesACounter :
    ∃ t, exec .recv (reading [.fault]) = .next t :=
  ⟨_, rfl⟩

theorem witness_RecvFrame :
    (after (exec .recv (reading [.fault])) fun t => t.res) = some .fault ∧
    (after (exec .recv (reading [.byte 4, .byte 0, .byte 6, .byte 0])) fun t => t.res) = some .ok :=
  by decide

theorem witness_ParseWithoutAPacketReportsNone :
    State.reset.rxvalid = false :=
  by decide

theorem witness_UndecodedChannelsAreIgnored :
    (held ⟨5, 0, 4, 0⟩ [1]).rxvalid = true ∧ (held ⟨5, 0, 4, 0⟩ [1]).rxchan.toNat ∈ [0, 1, 4] ∧
    (held ⟨5, 0, 6, 0⟩ [1]).rxvalid = true ∧ 6 ≤ (held ⟨5, 0, 6, 0⟩ [1]).rxchan.toNat ∧
    6 ≤ (held ⟨5, 0, 0xFF, 0⟩ [1]).rxchan.toNat :=
  by decide

theorem witness_ControlResponsesAreRouted :
    (held ⟨5, 0, 2, 0⟩ [0xF1]).cfg.WellFormed ∧ (held ⟨5, 0, 2, 0⟩ [0xF1]).rxvalid = true ∧
    (held ⟨5, 0, 2, 0⟩ [0xF1]).rxchan = 2 ∧
    1 ≤ (held ⟨5, 0, 2, 0⟩ [0xF1]).rxcnt.toNat ∧
    (held ⟨5, 0, 2, 0⟩ [0xF1]).readByte 0 = Config.suggested.ridCommandResponse :=
  ⟨suggested_wellFormed, by decide, by decide, by decide, by decide⟩

theorem witness_UnknownFirstBytesAreIgnored_empty :
    (held ⟨4, 0, 2, 0⟩ []).rxvalid = true ∧ (held ⟨4, 0, 2, 0⟩ []).rxchan = 2 ∧
    (held ⟨4, 0, 2, 0⟩ []).rxcnt.toNat = 0 :=
  by decide

theorem witness_UnknownFirstBytesAreIgnored_control :
    (held ⟨5, 0, 2, 0⟩ [0xFB]).rxvalid = true ∧ 1 ≤ (held ⟨5, 0, 2, 0⟩ [0xFB]).rxcnt.toNat ∧
    (held ⟨5, 0, 2, 0⟩ [0xFB]).rxchan = 2 ∧
    (held ⟨5, 0, 2, 0⟩ [0xFB]).readByte 0 ∉ (held ⟨5, 0, 2, 0⟩ [0xFB]).cfg.controlIds :=
  by decide

theorem witness_UnknownFirstBytesAreIgnored_reports :
    (held ⟨5, 0, 3, 0⟩ [1]).rxvalid = true ∧ 1 ≤ (held ⟨5, 0, 3, 0⟩ [1]).rxcnt.toNat ∧
    (held ⟨5, 0, 3, 0⟩ [1]).rxchan = 3 ∧
    (held ⟨5, 0, 3, 0⟩ [1]).readByte 0 ≠ (held ⟨5, 0, 3, 0⟩ [1]).cfg.ridBaseTimestamp :=
  by decide

theorem witness_ParseThatReportsNothingLeavesTheValueStore :
    accPacket.cfg.WellFormed ∧ ∃ t, exec .parse accPacket = .next t :=
  ⟨suggested_wellFormed, _, rfl⟩

theorem witness_ParseTwiceIsParseOnce :
    ∃ t, exec .parse accPacket = .next t :=
  ⟨_, rfl⟩

theorem witness_ParseDependsOnTheHeldPacketAlone :
    let s2 : State := { accPacket with rxseq := 9, trunc := true, buf := accPacket.buf ++ [(200, 1)] }
    s2.rxvalid = accPacket.rxvalid ∧ s2.rxchan = accPacket.rxchan ∧ s2.rxcnt = accPacket.rxcnt ∧
    s2.cfg = accPacket.cfg ∧
    (∀ a, a < accPacket.rxcnt.toNat → s2.readByte a = accPacket.readByte a) ∧ SameValueStore accPacket s2 ∧
    (∃ t, exec .parse accPacket = .next t) ∧ ∃ t, exec .parse s2 = .next t :=
  ⟨rfl, rfl, rfl, rfl, by decide, ⟨rfl, rfl, rfl, rfl, rfl, rfl, rfl, rfl, rfl, rfl, rfl, rfl⟩, ⟨_, rfl⟩, _, rfl⟩

theorem witness_ThreeComponentReportsFillTheirSlot :
    13 ≤ (sensor 0 1 2 [1, 0, 2, 0]).rxcnt.toNat ∧ (sensor 0 1 2 [1, 0, 2, 0]).cfg.WellFormed ∧
    (sensor 0 1 2 [1, 0, 2, 0]).readByte 5 = (sensor 0 1 2 [1, 0, 2, 0]).cfg.ridAcc :=
  ⟨by decide, suggested_wellFormed, by decide⟩

theorem witness_RotationVectorReportsFillQuat :
    13 ≤ (sensor 0 5 3 [0, 0, 0, 0, 0, 0, 0, 0x40, 0, 0x10]).rxcnt.toNat ∧
    (sensor 0 5 3 [0, 0, 0, 0, 0, 0, 0, 0x40, 0, 0x10]).cfg.WellFormed ∧
    (sensor 0 5 3 [0, 0, 0, 0, 0, 0, 0, 0x40, 0, 0x10]).readByte 5 = Config.suggested.ridRv :=
  ⟨by decide, suggested_wellFormed, by decide⟩

theorem witness_ScalarReportsFillTheirSlot :
    (sensor 0 0x13 0 [3, 0, 0, 0]).cfg.WellFormed ∧ 13 ≤ (sensor 0 0x13 0 [3, 0, 0, 0]).rxcnt.toNat ∧
    (sensor 0 0x13 0 [3, 0, 0, 0]).readByte 5 = Config.suggested.ridStab :=
  ⟨suggested_wellFormed, by decide, by decide⟩

theorem witness_SensorPacketsReturnTheirReportId_known :
    13 ≤ (sensor 0 1 2 [1, 0, 2, 0]).rxcnt.toNat ∧
    (sensor 0 1 2 [1, 0, 2, 0]).readByte 5 ∈ (sensor 0 1 2 [1, 0, 2, 0]).cfg.sensorIds :=
  by decide

theorem witness_SensorPacketsReturnTheirReportId_unknown :
    13 ≤ (sensor 0 0x2A 2 [1, 0, 2, 0]).rxcnt.toNat ∧
    (sensor 0 0x2A 2 [1, 0, 2, 0]).readByte 5 ∉ (sensor 0 0x2A 2 [1, 0, 2, 0]).cfg.sensorIds :=
  by decide

theorem witness_SensorPacketsReturnTheirReportId_short :
    (sensor 0 1 2 [1, 0, 2]).rxcnt.toNat < 13 ∧ 12 ≤ (sensor 0 1 2 [1, 0, 2]).rxcnt.toNat :=
  by decide

theorem witness_ParseOfAnAccelerometerPacketFillsAcc :
    accPacket.rxvalid = true ∧ accPacket.rxchan = 3 ∧ 15 ≤ accPacket.rxcnt.toNat ∧
    accPacket.readByte 0 = accPacket.cfg.ridBaseTimestamp ∧ accPacket.readByte 5 = accPacket.cfg.ridAcc :=
  by decide

theorem witness_GyroPacketsFillQuatAndFgyr :
    gyroPacket.rxvalid = true ∧ gyroPacket.rxchan = 5 ∧ 14 ≤ gyroPacket.rxcnt.toNat ∧
    (held ⟨0x11, 0, 5, 0⟩ (List.replicate 13 0)).rxcnt.toNat < 14 :=
  by decide

theorem witness_ConversionIsExact :
    (149 : Byte).toNat ≤ 149 ∧ (0 : Byte).toNat ≤ 149 :=
  by decide

theorem witness_ConversionAtZeroAndBeyond149 :
    s16 0 = 0 ∧ s16 0x8000 ≠ 0 ∧ 150 ≤ (150 : Byte).toNat ∧ 150 ≤ (255 : Byte).toNat :=
  by decide

theorem witness_GetrReturnsTheStoredPattern :
    accPacket.cellTable.length = 32 ∧ ∀ slot ∈ [(12 : Byte), 255], ∀ r ∈ accPacket.cellTable, ¬ (r.1 = slot ∧
    r.2.1 = 0) :=
  by
  refine ⟨rfl, ?_⟩
  simp [State.cellTable, State.convertibleTable, State.plainTable]

theorem witness_GetfIsCvtOfTheStoredPattern :
    accPacket.cfg.WellFormed ∧ accPacket.convertibleTable.length = 20 ∧
    ∀ r ∈ accPacket.convertibleTable, ¬ (r.1 = 6 ∧ r.2.1 = 0) :=
  by
  refine ⟨suggested_wellFormed, rfl, ?_⟩
  simp [State.convertibleTable]

theorem witness_GetaAndGettReturnTheStamp :
    accPacket.stampTable.length = 11 ∧ 11 < (12 : Byte).toNat :=
  ⟨rfl, by decide⟩

theorem witness_ReadsChangeOnlyTheCause :
    (0x14 : Byte) ≠ 0x15 ∧ ∃ t u, exec (.rdsr 0x14) accPacket = .next t ∧ exec (.rdsr 0x14) t = .next u :=
  ⟨by decide, _, _, rfl, rfl⟩

theorem witness_LdbReturnsTheByte :
    (269 : Half).toNat < State.reset.cfg.maxPayload ∧ State.reset.cfg.maxPayload ≤ (270 : Half).toNat :=
  by decide

theorem witness_StbStoresOneByte :
    (0 : Half).toNat < State.reset.cfg.maxPayload ∧ (269 : Half).toNat < State.reset.cfg.maxPayload ∧
    State.reset.cfg.maxPayload ≤ (270 : Half).toNat :=
  by decide

theorem witness_RdsrReturnsTheStatusRegister :
    State.reset.statusTable.length = 16 ∧
    ∀ sel ∈ [(0x06 : Byte), 0x0F, 0x1A, 0xFF], ∀ r ∈ State.reset.statusTable, r.1 ≠ sel :=
  by decide

theorem witness_RdsrCauseTwiceAnswersTheCauseThenNone :
    ∃ t, exec (.rdsr 0x15) State.reset = .next t :=
  ⟨_, rfl⟩

theorem witness_PollIsRecvThenParse :
    (after (exec .recv (reading [.byte 4, .byte 0, .byte 6, .byte 0])) fun t => t.res) = some .ok ∧
    (after (exec .recv (reading [.fault])) fun t => t.res) ≠ some .ok :=
  by decide

end Sys2Proof.Tests
end

section
/-! PROOFS. `SEND` (40_framer_tx.md): the rules of the operation, then O25, O24 and O27. -/

namespace Sys2Proof.Machine

open Sys2Proof

/-! ### The packet -/

/-- The length bytes of the header `SEND` builds, the bit operations of R101 as arithmetic. -/
theorem Header.build_eq (ch : Byte) (n : Nat) (seq : Byte) :
    Header.build ch n seq =
      ⟨BitVec.ofNat 8 ((n + 4) % 256), BitVec.ofNat 8 ((n + 4) / 256 % 128), ch, seq⟩ := by
  have low : (n + 4) &&& 0xFF = (n + 4) % 256 := Nat.and_two_pow_sub_one_eq_mod (n + 4) 8
  have high : ((n + 4) >>> 8) &&& 0x7F = (n + 4) / 256 % 128 := by
    rw [Nat.shiftRight_eq_div_pow]
    exact Nat.and_two_pow_sub_one_eq_mod ((n + 4) / 256) 7
  rw [Header.build, low, high]

theorem State.txPacket_eq (s : State) (ch : Byte) (n : Nat) :
    s.txPacket ch n =
      [BitVec.ofNat 8 ((n + 4) % 256), BitVec.ofNat 8 ((n + 4) / 256 % 128), ch, s.seqRead ch.toNat] ++
        (List.range n).map s.readByte := by
  rw [State.txPacket, Header.build_eq]
  rfl

/-! ### Which `SEND` is refused -/

theorem exec_send_illegal {s : State} {ch : Byte} {n : Half} (h : 5 < ch.toNat ∨ s.cfg.maxPayload < n.toNat) :
    exec (.send ch n) s = .next s.refuse :=
  congrArg Host.Outcome.next (if_pos h)

theorem exec_send_legal {s : State} {ch : Byte} {n : Half} (hch : ch.toNat ≤ 5) (hn : n.toNat ≤ s.cfg.maxPayload) :
    exec (.send ch n) s = .next (s.send ch n.toNat) :=
  congrArg Host.Outcome.next (if_neg (by omega))

/-! ### What a `SEND` that is not refused writes -/

theorem State.send_trace (ch : Byte) (n : Nat) (s : State) :
    (s.send ch n).trace = s.trace ++ [.write (s.txPacket ch n) (nextWrite s.wrAnswers s.draws).1] := by
  rw [State.send_eq]

/-- The transport's answer is taken once, and nothing else of the transport (R108). -/
theorem State.send_answers (ch : Byte) (n : Nat) (s : State) :
    (s.send ch n).rdStream = s.rdStream ∧ (s.send ch n).wrAnswers = (nextWrite s.wrAnswers s.draws).2.1 ∧
      (s.send ch n).draws = (nextWrite s.wrAnswers s.draws).2.2 := by
  rw [State.send_eq]
  exact ⟨rfl, rfl, rfl⟩

/-- The counter of the channel moves by one whatever the answer, and no other moves (R102, R103). -/
theorem State.send_seqRead {ch : Byte} (hch : ch.toNat ≤ 5) (n : Nat) (s : State) (c : Nat) :
    (s.send ch n).seqRead c = if c = ch.toNat then s.seqRead ch.toNat + 1 else s.seqRead c := by
  have hseq : (s.send ch n).seq = s.seq.setIfInBounds ch.toNat (s.seqRead ch.toNat + 1) := by rw [State.send_eq]
  exact State.seqRead_setIfInBounds hseq (by omega) c

theorem State.send_ok {s : State} (ch : Byte) (n : Nat) (h : (nextWrite s.wrAnswers s.draws).1 = .ok) :
    (s.send ch n).res = .ok ∧ (s.send ch n).cause = .cNone := by
  simp only [State.send_eq, h, and_self]

theorem State.send_nack {s : State} (ch : Byte) (n : Nat) (h : (nextWrite s.wrAnswers s.draws).1 = .nack) :
    (s.send ch n).res = .fault ∧ (s.send ch n).cause = .txNack := by
  simp only [State.send_eq, h, and_self]

theorem State.send_rdata (ch : Byte) (n : Nat) (s : State) : (s.send ch n).rdata = 0 := by
  rw [State.send_eq]

/-- No packet is held after a `SEND`, and the receive sequencer is idle (R105). -/
theorem State.send_dropsPacket (ch : Byte) (n : Nat) (s : State) :
    (s.send ch n).rxvalid = false ∧ (s.send ch n).trunc = false ∧ (s.send ch n).rxcnt = 0 ∧
      (s.send ch n).rxfsm = .idle := by
  rw [State.send_eq]
  exact ⟨rfl, rfl, rfl, rfl⟩

/-! ### What it leaves unchanged -/

theorem State.send_sameHeader (ch : Byte) (n : Nat) (s : State) : SameHeader s (s.send ch n) := by
  rw [State.send_eq]
  constructor <;> rfl

theorem State.send_sameVerdict (ch : Byte) (n : Nat) (s : State) : SameVerdict s (s.send ch n) := by
  rw [State.send_eq]
  constructor <;> rfl

theorem State.send_sameValueStore (ch : Byte) (n : Nat) (s : State) : SameValueStore s (s.send ch n) := by
  rw [State.send_eq]
  constructor <;> rfl

theorem State.send_sameInstance (ch : Byte) (n : Nat) (s : State) : SameInstance s (s.send ch n) := by
  rw [State.send_eq]
  constructor <;> rfl

theorem State.send_sameBuf (ch : Byte) (n : Nat) (s : State) : SameBuf s (s.send ch n) :=
  State.readByte_congr (by rw [State.send_eq]) (s.send_sameInstance ch n).epoch

/-! ### One `SEND` -/

/-- Settles O25: the refusal is the whole effect. -/
theorem sendWithAnIllegalOperandIsRefused : Obligations.SendWithAnIllegalOperandIsRefused := by
  intro s ch n h
  rw [exec_send_illegal h, State.refuse_eq]
  rfl

/-- Settles O24, from the rules of `State.send` above. -/
theorem sendWritesOnePacketAndCountsIt : Obligations.SendWritesOnePacketAndCountsIt := by
  intro s ch n hch hn
  have hseq := State.send_seqRead hch n.toNat s
  obtain ⟨hvalid, htrunc, hcnt, hfsm⟩ := s.send_dropsPacket ch n.toNat
  refine ⟨s.send ch n.toNat, exec_send_legal hch hn, ?trace, ?counted, ?others, State.send_ok ch n.toNat,
    State.send_nack ch n.toNat, s.send_rdata ch n.toNat, hvalid, htrunc, hcnt, hfsm, s.send_sameHeader ch n.toNat,
    s.send_sameVerdict ch n.toNat, s.send_sameValueStore ch n.toNat, s.send_sameBuf ch n.toNat,
    s.send_sameInstance ch n.toNat, s.send_answers ch n.toNat⟩
  case trace => rw [State.send_trace, State.txPacket_eq]
  case counted => rw [hseq, if_pos rfl]
  case others => intro c hc; rw [hseq, if_neg hc]

/-! ### Runs of `SEND` -/

theorem runOps_cons_next {i : Instr} {s t : State} (h : exec i s = .next t) (is : List Instr) :
    runOps (i :: is) s = runOps is t := by
  rw [runOps, h]

/-- The write of a `SEND` contributes the counter to the sequence bytes of its own channel, and nothing to another's. -/
theorem sequenceBytesOn_txPacket (ch c : Byte) (n : Nat) (s : State) (ans : WrAnswer) (es : List TraceEntry) :
    sequenceBytesOn ch (.write (s.txPacket c n) ans :: es) =
      if c = ch then s.seqRead c.toNat :: sequenceBytesOn ch es else sequenceBytesOn ch es := rfl

theorem add_one_add_ofNat (x : Byte) (k : Nat) : x + 1 + BitVec.ofNat 8 k = x + BitVec.ofNat 8 (k + 1) := by
  rw [Nat.add_comm k 1, BitVec.ofNat_add, ← BitVec.add_assoc]
  rfl

/-- Counting up from `x` is `x`, then counting up from `x + 1`. -/
theorem countUp_succ (x : Byte) (m : Nat) :
    (List.range (m + 1)).map (fun k => x + BitVec.ofNat 8 k) =
      x :: (List.range m).map (fun k => x + 1 + BitVec.ofNat 8 k) := by
  have shift : (fun k => x + 1 + BitVec.ofNat 8 k) = (fun k => x + BitVec.ofNat 8 k) ∘ Nat.succ :=
    funext (add_one_add_ofNat x)
  rw [List.range_succ_eq_map, List.map_cons, List.map_map, shift, BitVec.add_zero]

/-- Settles O27, by induction on the run: the first `SEND` moves the counter of its own channel, from which the rest of the
run counts on, and leaves the counters of the other channels where the rest of the run finds them. -/
theorem sequenceBytesCountUpPerChannel : Obligations.SequenceBytesCountUpPerChannel := by
  intro ops
  induction ops with
  | nil =>
    intro s _
    exact ⟨s, [], rfl, (List.append_nil _).symm, fun ch _ => ⟨rfl, (BitVec.add_zero _).symm⟩⟩
  | cons p ops ih =>
    intro s hlegal
    obtain ⟨c, n⟩ := p
    obtain ⟨⟨hc : c.toNat ≤ 5, hn : n.toNat ≤ s.cfg.maxPayload⟩, hrest⟩ := List.forall_mem_cons.mp hlegal
    have hseq := State.send_seqRead hc n.toNat s
    rw [← (s.send_sameInstance c n.toNat).cfg] at hrest
    obtain ⟨t, es, hrun, htrace, hcount⟩ := ih (s.send c n.toNat) hrest
    refine ⟨t, .write (s.txPacket c n.toNat) (nextWrite s.wrAnswers s.draws).1 :: es, ?run, ?trace, ?count⟩
    case run => rw [List.map_cons, runOps_cons_next (exec_send_legal hc hn), hrun]
    case trace => rw [htrace, State.send_trace, List.append_assoc, List.singleton_append]
    case count =>
      intro ch hch
      obtain ⟨hbytes, hend⟩ := hcount ch hch
      rw [sequenceBytesOn_txPacket, hbytes, hend]
      by_cases hsame : c = ch
      · subst hsame
        rw [hseq, if_pos rfl, if_pos rfl, List.countP_cons_of_pos (a := (c, n)) (beq_self_eq_true c), countUp_succ,
          add_one_add_ofNat]
        exact ⟨rfl, rfl⟩
      · have hother : ch.toNat ≠ c.toNat := fun h => hsame (BitVec.eq_of_toNat_eq h.symm)
        rw [hseq, if_neg hother, if_neg hsame, List.countP_cons_of_neg (a := (c, n)) (by simpa using hsame)]
        exact ⟨rfl, rfl⟩

end Sys2Proof.Machine
end

section
/-! PROOFS. `RECV` (41_framer_rx.md): what every outcome leaves alone, the header that ends it, the payload that arrives
whole, then O28, O29, O31 and O35. -/

namespace Sys2Proof.Machine

open Sys2Proof

/-! ### What every `RECV` leaves alone -/

/-- No outcome of `RECV` writes a counter, the Value Store, the verdict of the last `PARSE`, the instance or the write
answers. -/
theorem State.recv_frame (s : State) :
    s.recv.seq = s.seq ∧ SameValueStore s s.recv ∧ SameVerdict s s.recv ∧ SameInstance s s.recv ∧
      s.recv.wrAnswers = s.wrAnswers := by
  obtain ⟨_, _, _, _, _, _, _, _, _, _, _, _, _, _, hrecv, -⟩ := s.recv_cases
  rw [hrecv]
  exact ⟨rfl, by constructor <;> rfl, by constructor <;> rfl, by constructor <;> rfl, rfl⟩

theorem State.seqRead_congr {s t : State} (h : t.seq = s.seq) (c : Nat) : t.seqRead c = s.seqRead c := by
  rw [State.seqRead, State.seqRead, h]

/-! ### A header that ends the `RECV` -/

/-- What a `RECV` that ends at the declared length leaves, whichever cause it records (R113; "state otherwise as in rule
R113", R114). -/
theorem exec_recv_of_headerRejected {s : State} {h0 h1 h2 h3 : Byte} {rest : List StreamItem} {d : Nat} {c : Cause}
    (hrecv : s.recv = { s.latched ⟨h0, h1, h2, h3⟩ rest d with rxfsm := .idle, cause := c, res := .none, rdata := 0 }) :
    ∃ t, exec .recv s = .next t ∧ t.res = .none ∧ t.cause = c ∧ t.rdata = 0 ∧ t.rxfsm = .idle ∧
      t.rxvalid = false ∧ t.trunc = false ∧ t.rxcnt = 0 ∧ t.rxhdr = ⟨h0, h1, h2, h3⟩ ∧
      t.rxchan = s.rxchan ∧ t.rxseq = s.rxseq ∧ t.rxlen = s.rxlen ∧ (∀ k, t.seqRead k = s.seqRead k) ∧
      t.trace = s.trace ++ [.read 4 (.bytes [h0, h1, h2, h3])] ∧ t.rdStream = rest ∧ t.draws = d ∧
      SameBuf s t ∧ SameValueStore s t ∧ SameVerdict s t ∧ SameInstance s t ∧ t.wrAnswers = s.wrAnswers := by
  obtain ⟨hseq, hstore, hverdict, hinst, hwr⟩ := s.recv_frame
  rw [hrecv] at hseq hstore hverdict hinst hwr
  exact ⟨_, congrArg Host.Outcome.next hrecv, rfl, rfl, rfl, rfl, rfl, rfl, rfl, rfl, rfl, rfl, rfl,
    State.seqRead_congr hseq, rfl, rfl, rfl, State.readByte_congr rfl rfl, hstore, hverdict, hinst, hwr⟩

/-- Settles O28: declared length 0 takes the first exit of the header. -/
theorem recvOfAZeroLengthHeaderReturnsNone : Obligations.RecvOfAZeroLengthHeaderReturnsNone := by
  intro s h0 h1 h2 h3 rest d htake hlow hhigh
  have hlen : (Header.mk h0 h1 h2 h3).declaredLength = 0 := by
    rw [Header.declaredLength_eq, hlow, hhigh]
    rfl
  exact exec_recv_of_headerRejected (State.recv_zero htake hlen)

/-- Settles O29: declared length 1, 2 or 3 takes the second exit of the header. -/
theorem recvOfAShortLengthHeaderReturnsNone : Obligations.RecvOfAShortLengthHeaderReturnsNone := by
  intro s h0 h1 h2 h3 rest d htake hlow hlow' hhigh
  have hlen : (Header.mk h0 h1 h2 h3).declaredLength = h0.toNat := by
    rw [Header.declaredLength_eq, hhigh]
    rfl
  exact exec_recv_of_headerRejected (State.recv_short htake (by omega) (by omega))

/-! ### A payload that arrives whole -/

/-- Everything a `RECV` does whose header and payload the stream brings (R115 to R118). -/
theorem State.recv_whole {s : State} {h0 h1 h2 h3 : Byte} {payload : List Byte} {rest : List StreamItem}
    (htMax : 1 ≤ s.cfg.tMax) (hstream : s.rdStream = ([h0, h1, h2, h3] ++ payload).map .byte ++ rest)
    (hlen : (Header.mk h0 h1 h2 h3).declaredLength = payload.length + 4) :
    s.recv =
      { s.accepted ⟨h0, h1, h2, h3⟩ payload.length rest s.draws with
        buf := Memory.store s.cfg.maxPayload 0 payload s.buf
        trace := s.trace ++ [.read 4 (.bytes [h0, h1, h2, h3])] ++ payloadReads s.cfg.tMax payload
        rxcnt := storedCount s.cfg payload.length, trunc := truncFlag s.cfg payload.length, rxvalid := true
        rxfsm := .complete, res := .ok, rdata := 0 } := by
  have htake : takeBytes 4 s.rdStream s.draws =
      (some [h0, h1, h2, h3], payload.map .byte ++ rest, s.draws) := by
    rw [hstream]
    exact takeBytes_prefix ([h0, h1, h2, h3] ++ payload) 4 rest s.draws (by simp)
  have hloop := State.payloadLoop_bytes (n := payload.length) (fuel := payload.length) (i := 0)
    (s := s.accepted ⟨h0, h1, h2, h3⟩ payload.length (payload.map .byte ++ rest) s.draws)
    htMax rfl (Nat.zero_add _) (Nat.le_refl _)
  rw [State.recv_payload htake hlen, hloop]
  rfl

/-- The stored count of a legal configuration fits the nine bits of `RXCNT` (R26). -/
theorem storedCount_toNat {cfg : Config} (hcfg : cfg.WellFormed) (n : Nat) :
    (storedCount cfg n).toNat = min n 270 := by
  rw [storedCount, hcfg.maxPayload, BitVec.toNat_ofNat, Nat.mod_eq_of_lt (by omega)]

/-- After a store from address 0 on, the buffer holds the bytes that were stored below its end (R117). -/
theorem State.readByte_of_stored {s t : State} {mx : Nat} {bs : List Byte} (hbuf : t.buf = Memory.store mx 0 bs s.buf)
    {a : Nat} (ha : a < min bs.length mx) : bs[a]? = some (t.readByte a) := by
  have hget : Memory.get? t.buf a = bs[a]? := by
    rw [hbuf, Memory.get?_store, if_pos (by omega), Nat.sub_zero]
  have hbyte : bs[a]? = some bs[a] := List.getElem?_eq_getElem (by omega)
  rw [State.readByte, hget, hbyte, Option.getD_some]

/-- After a store from address 0 on, every byte past the stored ones reads as before (R117). -/
theorem State.readByte_beyond_stored {s t : State} {mx : Nat} {bs : List Byte}
    (hbuf : t.buf = Memory.store mx 0 bs s.buf) (hepoch : t.epoch = s.epoch) {a : Nat} (ha : min bs.length mx ≤ a) :
    t.readByte a = s.readByte a := by
  have hget : Memory.get? t.buf a = Memory.get? s.buf a := by
    rw [hbuf, Memory.get?_store, if_neg (by omega)]
  rw [State.readByte, State.readByte, hget, hepoch]

/-- Settles O31, from the closed form of the `RECV`: its registers are read off, and `BUF` byte by byte. -/
theorem recvHoldsAWholePacket : Obligations.RecvHoldsAWholePacket := by
  intro s h0 h1 h2 h3 payload rest hcfg hstream hlen
  have htMax := hcfg.tMax
  have hrecv := State.recv_whole (by omega) hstream ((Header.declaredLength_eq _).trans hlen)
  obtain ⟨hseq, hstore, hverdict, hinst, hwr⟩ := s.recv_frame
  have hbuf : s.recv.buf = Memory.store 270 0 payload s.buf := by rw [hrecv, ← hcfg.maxPayload]
  have htrace : s.recv.trace =
      s.trace ++ .read 4 (.bytes [h0, h1, h2, h3]) :: payloadReads s.cfg.tMax payload := by
    rw [hrecv, List.append_assoc, List.singleton_append]
  have hreads : s.recv.trace.length = s.trace.length + (1 + (payload.length + s.cfg.tMax - 1) / s.cfg.tMax) := by
    rw [htrace, List.length_append, List.length_cons, payloadReads_length, Nat.add_comm 1]
  rw [hrecv] at hseq hstore hverdict hinst hwr hbuf htrace hreads
  refine ⟨_, congrArg Host.Outcome.next hrecv, rfl, rfl, rfl, rfl, rfl, rfl, rfl, rfl, ?rxlen,
    storedCount_toNat hcfg payload.length, ?trunc, fun a ha => State.readByte_of_stored hbuf ha,
    fun a ha => State.readByte_beyond_stored hbuf rfl ha, rfl, rfl, htrace, hreads, State.seqRead_congr hseq, hstore,
    hverdict, hinst, hwr⟩
  case rxlen =>
    have hb0 := h0.isLt
    exact Nat.mod_eq_of_lt (by omega)
  case trunc => rw [truncFlag, decide_eq_true_iff, hcfg.maxPayload]

/-! ### The counters are not read -/

/-- The chunk loop runs the same whatever the counters hold. -/
theorem State.payloadLoop_setSeq (n fuel i : Nat) (s : State) (v : Vector Byte 6) :
    ({ s with seq := v } : State).payloadLoop n fuel i =
      ((s.payloadLoop n fuel i).1, { (s.payloadLoop n fuel i).2 with seq := v }) := by
  have hhdr : (s.payloadLoop n fuel i).2.rxhdr = s.rxhdr := by
    obtain ⟨_, _, _, _, hloop, -⟩ := s.payloadLoop_frame n fuel i
    rw [hloop]
  obtain ⟨es, htrace, hloop⟩ := s.payloadLoop_unread n fuel i s.rxhdr s.trace v
  rw [hloop, ← htrace, ← hhdr]

theorem State.recvPayload_setSeq (n : Nat) (s : State) (v : Vector Byte 6) :
    ({ s with seq := v } : State).recvPayload n = { s.recvPayload n with seq := v } := by
  have hloop := State.payloadLoop_setSeq n n 0 { s with rxfsm := .awaitingPayload } v
  rw [State.recvPayload, State.recvPayload, hloop]
  rcases ({ s with rxfsm := .awaitingPayload } : State).payloadLoop n n 0 with ⟨_ | _, t⟩ <;> rfl

theorem State.recvHeader_setSeq (h : Header) (s : State) (v : Vector Byte 6) :
    ({ s with seq := v } : State).recvHeader h = { s.recvHeader h with seq := v } := by
  unfold State.recvHeader
  split
  · rfl
  · split
    · rfl
    · exact State.recvPayload_setSeq (h.declaredLength - 4)
        { s with rxhdr := h, rxchan := h.b2, rxseq := h.b3, rxlen := BitVec.ofNat 15 (h.declaredLength - 4) } v

/-- `RECV` takes the same course whatever the counters hold, and ends with those it started with. -/
theorem State.recv_setSeq (s : State) (v : Vector Byte 6) :
    ({ s with seq := v } : State).recv = { s.recv with seq := v } := by
  rw [State.recv_eq, State.recv_eq]
  cases (takeBytes 4 s.rdStream s.draws).1 with
  | none => rfl
  | some bs => exact State.recvHeader_setSeq (Header.ofBytes bs) (s.awaitHeader.tRead 4).2 v

/-- Settles O35: the frame of `RECV` for the writes, its course under other counters for the reads. -/
theorem recvNeitherReadsNorWritesACounter : Obligations.RecvNeitherReadsNorWritesACounter := by
  intro s t v hexec
  obtain rfl : s.recv = t := Host.Outcome.next.inj hexec
  exact ⟨s.recv_frame.1, congrArg Host.Outcome.next (s.recv_setSeq v)⟩

end Sys2Proof.Machine
end

section
/-! PROOFS. The channel demultiplexer (42_demux.md): which row it gives a held packet, what an ignored packet leaves, then
O38, O40 and O37. -/

namespace Sys2Proof.Machine

open Sys2Proof

/-! ### Which row the demux gives -/

/-- Channels 0, 1 and 4 have a row each, whatever the payload (R132, R133, R142). -/
theorem decodePacket_undecoded {ch : Byte} (h : ch.toNat ∈ [0, 1, 4]) (cfg : Config) (first : Option Byte) :
    (decodePacket cfg ch first).instr ∈ [Instr.pktCmd, .pktExe, .pktWake] := by
  simp only [List.mem_cons, List.not_mem_nil, or_false] at h
  rcases h with h | h | h <;> simp [decodePacket, h, PktRow.instr]

theorem decodePacket_badchan {ch : Byte} (h : 6 ≤ ch.toNat) (cfg : Config) (first : Option Byte) :
    decodePacket cfg ch first = .badchan := by
  obtain ⟨k, hk⟩ := Nat.exists_eq_add_of_le' h
  simp only [decodePacket, hk]

/-- A first byte that is none of the three identifiers, or no first byte, falls to the default row of channel 2 (R135,
R139). -/
theorem decodePacket_ctlOther {cfg : Config} {first : Option Byte} (h : ∀ b ∈ cfg.controlIds, first ≠ some b) :
    decodePacket cfg 2 first = .ctlOther := by
  simp only [Config.controlIds, List.forall_mem_cons] at h
  obtain ⟨hprodid, hcmdresp, hfrsresp, -⟩ := h
  simp [decodePacket, hprodid, hcmdresp, hfrsresp]

/-- A first byte that is not the base timestamp's, or no first byte, falls to the default row of channel 3 (R141). -/
theorem decodePacket_rptOther {cfg : Config} {first : Option Byte} (h : first ≠ some cfg.ridBaseTimestamp) :
    decodePacket cfg 3 first = .rptOther := by
  simp [decodePacket, h]

/-- The two default rows together: the channel knows no identifier that the packet begins with. -/
theorem decodePacket_defaultRow {cfg : Config} {ch : Byte} {first : Option Byte}
    (h : (ch = 2 ∧ ∀ b ∈ cfg.controlIds, first ≠ some b) ∨ (ch = 3 ∧ first ≠ some cfg.ridBaseTimestamp)) :
    (decodePacket cfg ch first).instr ∈ [Instr.pktCtlOther, .pktRptOther] := by
  rcases h with ⟨rfl, hctl⟩ | ⟨rfl, hrpt⟩
  · rw [decodePacket_ctlOther hctl]
    exact List.mem_cons_self
  · rw [decodePacket_rptOther hrpt]
    exact List.mem_cons_of_mem _ List.mem_cons_self

theorem State.firstByte_empty {s : State} (h : s.rxcnt.toNat = 0) : s.firstByte = none :=
  if_neg (by omega)

theorem State.firstByte_nonempty {s : State} (h : 1 ≤ s.rxcnt.toNat) : s.firstByte = some (s.readByte 0) :=
  if_pos h

/-! ### What an ignored packet leaves -/

theorem State.ignore_eq_returningNone (c : Cause) (s : State) : s.ignore c = s.returningNone .ignored c := rfl

/-- The three classes with no decoder (R132, R133, R142). -/
theorem exec_undecoded {i : Instr} (h : i ∈ [Instr.pktCmd, .pktExe, .pktWake]) (s : State) :
    exec i s = .next (s.returningNone .ignored .noDecoder) := by
  simp only [List.mem_cons, List.not_mem_nil, or_false] at h
  rcases h with rfl | rfl | rfl <;> rfl

theorem exec_pktBadchan (s : State) : exec .pktBadchan s = .next (s.returningNone .ignored .badChan) := rfl

/-- The default rows of channels 2 and 3 give the packet the same cause (R135, R139, R141). -/
theorem exec_defaultRow {i : Instr} (h : i ∈ [Instr.pktCtlOther, .pktRptOther]) (s : State) :
    exec i s = .next (s.returningNone .ignored s.defaultCause) := by
  simp only [List.mem_cons, List.not_mem_nil, or_false] at h
  rcases h with rfl | rfl <;> rfl

theorem exec_defaultRow_empty {i : Instr} (hi : i ∈ [Instr.pktCtlOther, .pktRptOther]) {s : State}
    (h : s.rxcnt.toNat = 0) : exec i s = .next (s.returningNone .ignored .malformed) := by
  rw [exec_defaultRow hi, State.defaultCause, if_pos (by omega)]

theorem exec_defaultRow_nonempty {i : Instr} (hi : i ∈ [Instr.pktCtlOther, .pktRptOther]) {s : State}
    (h : 1 ≤ s.rxcnt.toNat) : exec i s = .next (s.returningNone .ignored .badRid) := by
  rw [exec_defaultRow hi, State.defaultCause, if_neg (by omega)]

/-- On channels 2 and 3 an empty payload falls to the default row. -/
theorem State.defaultRow_of_empty {s : State} (hch : s.rxchan = 2 ∨ s.rxchan = 3) (h : s.rxcnt.toNat = 0) :
    (decodePacket s.cfg s.rxchan s.firstByte).instr ∈ [Instr.pktCtlOther, .pktRptOther] := by
  have hfirst (b : Byte) : s.firstByte ≠ some b := by simp [State.firstByte_empty h]
  exact decodePacket_defaultRow (hch.imp (fun h2 => ⟨h2, fun b _ => hfirst b⟩) (fun h3 => ⟨h3, hfirst _⟩))

/-- On channels 2 and 3 a first byte that the channel does not know falls to the default row. -/
theorem State.defaultRow_of_unknown {s : State} (h : 1 ≤ s.rxcnt.toNat)
    (hbyte : (s.rxchan = 2 ∧ s.readByte 0 ∉ s.cfg.controlIds) ∨
      (s.rxchan = 3 ∧ s.readByte 0 ≠ s.cfg.ridBaseTimestamp)) :
    (decodePacket s.cfg s.rxchan s.firstByte).instr ∈ [Instr.pktCtlOther, .pktRptOther] := by
  have hfirst (b : Byte) (hb : s.readByte 0 ≠ b) : s.firstByte ≠ some b := by
    simpa [State.firstByte_nonempty h] using hb
  refine decodePacket_defaultRow (hbyte.imp (fun ⟨h2, hctl⟩ => ⟨h2, fun b hb => hfirst b ?_⟩)
    (fun ⟨h3, hrpt⟩ => ⟨h3, hfirst _ hrpt⟩))
  exact (ne_of_mem_of_not_mem hb hctl).symm

/-! ### The obligations -/

/-- Settles O38: the class itself, and the row the demux gives the channel. -/
theorem undecodedChannelsAreIgnored : Obligations.UndecodedChannelsAreIgnored := by
  intro s
  refine ⟨fun i hi => exec_undecoded hi s, exec_pktBadchan s, fun hvalid hch => ?undecoded, fun hvalid hch => ?badchan⟩
  case undecoded =>
    rw [exec_parse_valid hvalid]
    exact exec_undecoded (decodePacket_undecoded hch s.cfg s.firstByte) s
  case badchan =>
    rw [exec_parse_valid hvalid, decodePacket_badchan hch]
    exact exec_pktBadchan s

/-- Settles O40: an empty payload and an unknown first byte fall to the default row, whose cause tells them apart. -/
theorem unknownFirstBytesAreIgnored : Obligations.UnknownFirstBytesAreIgnored := by
  intro s
  refine ⟨fun i hi => ⟨exec_defaultRow_empty hi, exec_defaultRow_nonempty hi⟩, fun hvalid hch hcnt => ?empty,
    fun hvalid hcnt hbyte => ?unknown⟩
  case empty =>
    rw [exec_parse_valid hvalid]
    exact exec_defaultRow_empty (State.defaultRow_of_empty hch hcnt) hcnt
  case unknown =>
    rw [exec_parse_valid hvalid]
    exact exec_defaultRow_nonempty (State.defaultRow_of_unknown hcnt hbyte) hcnt

theorem State.parseNothing_eq_returningNone (s : State) : s.parseNothing = s.returningNone .none .noPacket := rfl

/-- Settles O37. -/
theorem parseWithoutAPacketReportsNone : Obligations.ParseWithoutAPacketReportsNone := by
  intro s hvalid
  rw [exec_parse_none hvalid, State.parseNothing_eq_returningNone]

end Sys2Proof.Machine
end

section
/-! PROOFS. The sensor-report types and the Gyro channel (43_report_decode.md): which type the routing map gives an
identifier, what a type does with a packet, then O44, O45, O46, O47 and O49. -/

namespace Sys2Proof.Machine

open Sys2Proof

/-! ### Which report type the routing map gives -/

/-- The fourteen report types with an identifier, in the order of R80. -/
def knownReports : List RptRow :=
  [.acc, .lin, .gyr, .mag, .rv, .rvv1, .rvv2, .rvv3, .step, .stab, .act, .rawacc, .rawgyr, .rawmag]

/-- The identifier of a report type; the default row has none (R80). -/
def reportId (cfg : Config) : RptRow → Option Byte
  | .acc => some cfg.ridAcc
  | .lin => some cfg.ridLin
  | .gyr => some cfg.ridGyr
  | .mag => some cfg.ridMag
  | .rv => some cfg.ridRv
  | .rvv1 => some cfg.ridRvv1
  | .rvv2 => some cfg.ridRvv2
  | .rvv3 => some cfg.ridRvv3
  | .step => some cfg.ridStep
  | .stab => some cfg.ridStab
  | .act => some cfg.ridAct
  | .rawacc => some cfg.ridRawacc
  | .rawgyr => some cfg.ridRawgyr
  | .rawmag => some cfg.ridRawmag
  | .other => none

theorem knownReports_map_reportId (cfg : Config) : knownReports.map (reportId cfg) = cfg.sensorIds.map some := rfl

theorem mem_knownReports_of_reportId {cfg : Config} {r : RptRow} {rid : Byte} (h : reportId cfg r = some rid) :
    r ∈ knownReports := by
  cases r
  case other => cases h
  all_goals decide

/-- One test of the routing map, read on identifiers: the rows from this one on know one identifier more. -/
theorem firstId_cons (rid a : Byte) (as : List Byte) :
    (if rid ∈ a :: as then some rid else none) =
      if rid = a then some a else if rid ∈ as then some rid else none := by
  by_cases h : rid = a <;> simp [h]

/-- The routing map answers the row that carries the identifier, and the default row when none does (R80, R150). -/
theorem reportId_decodeReport (cfg : Config) (rid : Byte) :
    reportId cfg (decodeReport cfg rid) = if rid ∈ cfg.sensorIds then some rid else none := by
  unfold Config.sensorIds
  simp only [decodeReport, apply_ite (reportId cfg)]
  simp only [reportId, firstId_cons, List.not_mem_nil, if_false]

/-- The identifiers are distinct, so the row that carries one is the row the routing map gives it (R9, R80). -/
theorem decodeReport_of_reportId {cfg : Config} (hcfg : cfg.WellFormed) {r : RptRow} {rid : Byte}
    (h : reportId cfg r = some rid) : decodeReport cfg rid = r := by
  have hmem : some rid ∈ cfg.sensorIds.map some := by
    rw [← knownReports_map_reportId, ← h]
    exact List.mem_map_of_mem (mem_knownReports_of_reportId h)
  have hdec : reportId cfg (decodeReport cfg rid) = some rid := by
    rw [reportId_decodeReport, if_pos (by simpa using hmem)]
  have hnodup : (knownReports.map (reportId cfg)).Nodup := by
    rw [knownReports_map_reportId]
    exact hcfg.sensorDistinct.map (Option.some_injective _)
  exact List.inj_on_of_nodup_map hnodup (mem_knownReports_of_reportId hdec) (mem_knownReports_of_reportId h)
    (hdec.trans h.symm)

/-- The base-timestamp class runs the type of the embedded report ID (R140, R150). -/
theorem exec_pktRptBasets (s : State) :
    exec .pktRptBasets s = exec (decodeReport s.cfg (s.readByte 5)).instr s := by
  simp only [exec, execPktRptBasets]
  cases decodeReport s.cfg (s.readByte 5) <;> rfl

/-! ### What a report type does with a packet -/

/-- The slot write of a report type (R153 to R167); the default row writes none (R168). -/
def State.fillSlot (s : State) : RptRow → State
  | .acc => { s with acc := s.vecReport }
  | .lin => { s with lin := s.vecReport }
  | .gyr => { s with gyr := s.vecReport }
  | .mag => { s with mag := s.vecReport }
  | .rv | .rvv1 | .rvv2 | .rvv3 => { s with quat := s.quatReport }
  | .step => { s with stepCnt := s.scalarReport s.cfg.scalStep }
  | .stab => { s with stab := s.scalarReport s.cfg.scalStab }
  | .act => { s with act := s.scalarReport s.cfg.scalAct }
  | .rawacc => { s with rawacc := s.vecReport }
  | .rawgyr => { s with rawgyr := s.vecReport }
  | .rawmag => { s with rawmag := s.vecReport }
  | .other => s

/-- The routed end of `DecodeSensor`: a type with an identifier fills its slot and returns it, the default row is unknown
(R153, R168). -/
def State.routed (r : RptRow) (s : State) : State :=
  match reportId s.cfg r with
  | some rid => (s.fillSlot r).decoded rid
  | none => s.notDecoded .badRid

/-- Every report type is the same entry with its own routed end. -/
theorem exec_rptRow (r : RptRow) (s : State) : exec r.instr s = .next (s.sensor (State.routed r)) := by
  cases r <;> rfl

theorem State.returning_eq_decoded (cls : PktClass) (rid : Byte) (s : State) :
    s.returning cls rid = ({ s.begin with lastCls := cls }).decoded rid := by
  simp only [State.returning, State.decoded, State.ret, BitVec.ofNat_toNat, State.begin]

/-- A slot write touches nothing that the verdict reads or writes. -/
theorem State.decoded_fillSlot (s : State) (r : RptRow) (rid : Byte) :
    (s.fillSlot r).decoded rid = (s.decoded rid).fillSlot r := by
  cases r <;> rfl

/-- A packet too short for two data words is malformed whatever its type (R151). -/
theorem exec_rptRow_short (r : RptRow) {s : State} (h : s.rxcnt.toNat < 13) :
    exec r.instr s = .next (s.returningNone .sensor .malformed) := by
  rw [exec_rptRow, State.sensor_eq, if_pos h]
  rfl

/-- A type with an identifier returns it and fills its slot (R153). -/
theorem exec_rptRow_known {r : RptRow} {s : State} {rid : Byte} (h : 13 ≤ s.rxcnt.toNat)
    (hid : reportId s.cfg r = some rid) : exec r.instr s = .next ((s.returning .sensor rid).fillSlot r) := by
  have hroute : s.enterSensor.routed r = (s.enterSensor.fillSlot r).decoded rid := by
    rw [State.routed, show reportId s.enterSensor.cfg r = some rid from hid]
  rw [exec_rptRow, State.sensor_eq, if_neg (by omega), hroute, State.decoded_fillSlot, State.returning_eq_decoded,
    State.enterSensor]

/-- A row without an identifier changes no slot (R168). -/
theorem exec_rptRow_unknown {r : RptRow} {s : State} (h : 13 ≤ s.rxcnt.toNat) (hid : reportId s.cfg r = none) :
    exec r.instr s = .next (s.returningNone .sensor .badRid) := by
  have hroute : s.enterSensor.routed r = s.enterSensor.notDecoded .badRid := by
    rw [State.routed, show reportId s.enterSensor.cfg r = none from hid]
  rw [exec_rptRow, State.sensor_eq, if_neg (by omega), hroute]
  rfl

/-- What O44, O45 and O46 say of one type, in the model's own fields: the type itself, and the base-timestamp class when
the embedded report ID is the type's. -/
theorem exec_rptRow_and_class (r : RptRow) {s : State} {rid : Byte} (h : 13 ≤ s.rxcnt.toNat)
    (hid : reportId s.cfg r = some rid) :
    exec r.instr s = .next ((s.returning .sensor rid).fillSlot r) ∧
    (s.cfg.WellFormed → s.readByte 5 = rid →
      exec .pktRptBasets s = .next ((s.returning .sensor rid).fillSlot r)) := by
  refine ⟨exec_rptRow_known h hid, fun hcfg hbyte => ?_⟩
  rw [exec_pktRptBasets, hbyte, decodeReport_of_reportId hcfg hid]
  exact exec_rptRow_known h hid

/-! ### The report types fill their slots -/

/-- Settles O44: each of the seven types is a row of the routing map. -/
theorem threeComponentReportsFillTheirSlot : Obligations.ThreeComponentReportsFillTheirSlot := by
  intro s hlen
  rw [← s.vecReport_eq]
  simp only [List.forall_mem_cons, List.not_mem_nil, false_imp_iff, implies_true, and_true]
  exact ⟨exec_rptRow_and_class .acc hlen rfl, exec_rptRow_and_class .lin hlen rfl, exec_rptRow_and_class .gyr hlen rfl,
    exec_rptRow_and_class .mag hlen rfl, exec_rptRow_and_class .rawacc hlen rfl,
    exec_rptRow_and_class .rawgyr hlen rfl, exec_rptRow_and_class .rawmag hlen rfl⟩

/-- Settles O45: the four types are four rows with one slot. -/
theorem rotationVectorReportsFillQuat : Obligations.RotationVectorReportsFillQuat := by
  intro s hlen
  rw [← s.quatReport_eq]
  simp only [List.forall_mem_cons, List.not_mem_nil, false_imp_iff, implies_true, and_true]
  exact ⟨exec_rptRow_and_class .rv hlen rfl, exec_rptRow_and_class .rvv1 hlen rfl, exec_rptRow_and_class .rvv2 hlen rfl,
    exec_rptRow_and_class .rvv3 hlen rfl⟩

/-- A legal selector names one of the five data words, so a scalar type takes what the selector says (R8, R171). -/
theorem State.scalarReport_of_legal {s : State} (hcfg : s.cfg.WellFormed) {p : ScalSel} (hp : p ∈ s.cfg.scalSels) :
    s.scalarReport p = s.scalarBytes p := by
  obtain ⟨hk1, hk5⟩ := hcfg.scalars p hp
  exact s.scalarReport_eq hk1 hk5

/-- Settles O46: each of the three types is a row of the routing map, with a legal selector. -/
theorem scalarReportsFillTheirSlot : Obligations.ScalarReportsFillTheirSlot := by
  intro s hcfg hlen
  have hstep := State.scalarReport_of_legal hcfg (p := s.cfg.scalStep) (by simp [Config.scalSels])
  have hstab := State.scalarReport_of_legal hcfg (p := s.cfg.scalStab) (by simp [Config.scalSels])
  have hact := State.scalarReport_of_legal hcfg (p := s.cfg.scalAct) (by simp [Config.scalSels])
  rw [← hstep, ← hstab, ← hact]
  simp only [List.forall_mem_cons, List.not_mem_nil, false_imp_iff, implies_true, and_true]
  exact ⟨(exec_rptRow_and_class .step hlen rfl).imp_right (· hcfg),
    (exec_rptRow_and_class .stab hlen rfl).imp_right (· hcfg),
    (exec_rptRow_and_class .act hlen rfl).imp_right (· hcfg)⟩

/-! ### What a sensor packet reports -/

/-- The verdict of a filled slot, and what it leaves: `FGYR`, `BUF` and the held packet. -/
theorem State.returning_fillSlot (r : RptRow) (rid : Byte) (s : State) :
    let t := (s.returning .sensor rid).fillSlot r
    t.res = .ok ∧ t.cause = .cNone ∧ t.rdata = BitVec.ofNat 32 rid.toNat ∧ t.lastRid = rid ∧ t.lastCls = .sensor ∧
      t.fgyr = s.fgyr ∧ SameBuf s t ∧ SamePacket s t := by
  cases r <;> exact ⟨rfl, rfl, rfl, rfl, rfl, rfl, fun _ => rfl, ⟨⟨rfl, rfl, rfl, rfl⟩, rfl, rfl, rfl, rfl⟩⟩

/-- Settles O47: by the row the routing map gives the embedded report ID, and by the length for a short packet. -/
theorem sensorPacketsReturnTheirReportId : Obligations.SensorPacketsReturnTheirReportId := by
  intro s
  have hrow := reportId_decodeReport s.cfg (s.readByte 5)
  refine ⟨fun hlen hmem => ?known, fun hlen hmem => ?unknown, fun hlen => exec_rptRow_unknown (r := .other) hlen rfl,
    fun hlen => ?short⟩
  case known =>
    rw [if_pos hmem] at hrow
    rw [exec_pktRptBasets]
    obtain ⟨hres, hcause, hrdata, hrid, hcls, hfgyr, hbuf, hpacket⟩ :=
      s.returning_fillSlot (decodeReport s.cfg (s.readByte 5)) (s.readByte 5)
    refine ⟨_, exec_rptRow_known hlen hrow, hres, hcause, ?_, hrid, hcls, hfgyr, hbuf, hpacket⟩
    rw [hrdata]
    exact Nat.mod_eq_of_lt (by omega)
  case unknown =>
    rw [if_neg hmem] at hrow
    rw [exec_pktRptBasets, exec_rptRow_unknown hlen hrow]
  case short => rw [exec_pktRptBasets, exec_rptRow_short _ hlen]

/-! ### The Gyro channel -/

theorem State.gyroPacket_eq_returning {s : State} (h : 14 ≤ s.rxcnt.toNat) :
    s.gyroPacket =
      { s.returning .gyro s.cfg.ridGirv with
        quat := ⟨s.wordAt 0, s.wordAt 2, s.wordAt 4, s.wordAt 6, s.quat.radacc, s.quat.accy, s.quat.ts⟩
        fgyr := ⟨s.wordAt 8, s.wordAt 10, s.wordAt 12⟩ } := by
  rw [State.gyroPacket_long h, State.returning_eq_decoded]
  rfl

theorem State.gyroPacket_eq_returningNone {s : State} (h : s.rxcnt.toNat < 14) :
    s.gyroPacket = s.returningNone .gyro .malformed :=
  State.gyroPacket_short h

theorem exec_parse_gyro {s : State} (hvalid : s.rxvalid = true) (hch : s.rxchan = 5) :
    exec .parse s = .next s.gyroPacket := by
  rw [exec_parse_valid hvalid, hch]
  rfl

/-- Settles O49: the class and the `PARSE` of a packet on its channel both run the Gyro decoder. -/
theorem gyroPacketsFillQuatAndFgyr : Obligations.GyroPacketsFillQuatAndFgyr := by
  intro s i hi
  have hexec : exec i s = .next s.gyroPacket := by
    rcases hi with rfl | ⟨rfl, hvalid, hch⟩
    · rfl
    · exact exec_parse_gyro hvalid hch
  rw [hexec]
  exact ⟨fun hlen => by rw [State.gyroPacket_eq_returning hlen],
    fun hlen => by rw [State.gyroPacket_eq_returningNone hlen]⟩

end Sys2Proof.Machine
end

section
/-! PROOFS. `CVT` and the accessors (44_qformat.md): what each answers as one read, the cells of the select tables, then
O51 to O54. -/

namespace Sys2Proof.Machine

open Sys2Proof

/-! ### Each operation is one read -/

theorem exec_cvt (raw : Half) (q : Byte) (s : State) : exec (.cvt raw q) s = .next (s.access (convert raw q)) := rfl

theorem exec_getr (slot comp : Byte) (s : State) :
    exec (.getr slot comp) s = .next (s.access ((s.cell slot comp).map (·.setWidth 32))) := rfl

theorem exec_getf (slot comp : Byte) (s : State) :
    exec (.getf slot comp) s = .next (s.access (s.cellFloat slot comp)) := rfl

theorem exec_geta (slot : Byte) (s : State) :
    exec (.geta slot) s = .next (s.access ((s.slotAccy slot).map (·.setWidth 32))) := rfl

theorem exec_gett (slot : Byte) (s : State) : exec (.gett slot) s = .next (s.access (s.slotTs slot)) := rfl

/-! ### The conversion of a pair -/

theorem convert_zero {raw : Half} (h : s16 raw = 0) (q : Byte) : convert raw q = some 0 :=
  if_pos h

theorem convert_beyond_149 {raw : Half} {q : Byte} (h : s16 raw ≠ 0) (hq : 150 ≤ q.toNat) : convert raw q = none := by
  rw [convert, if_neg h, if_pos (by omega)]

/-- Up to `q = 149` every raw value converts, and zero needs no case of its own: `f32bits` takes it to 0 too (R181, R182). -/
theorem convert_upto_149 {q : Byte} (hq : q.toNat ≤ 149) (raw : Half) :
    convert raw q = some (f32bits (s16 raw) q.toNat) := by
  by_cases h : s16 raw = 0
  · rw [convert_zero h, h, f32bits, if_pos rfl]
  · rw [convert, if_neg h, if_neg (by omega)]

/-- Settles O51. -/
theorem conversionAtZeroAndBeyond149 : Obligations.ConversionAtZeroAndBeyond149 := by
  intro s raw q
  refine ⟨fun hzero => ?_, fun hne hq => ?_⟩
  · rw [exec_cvt, convert_zero hzero, State.access_some]; rfl
  · rw [exec_cvt, convert_beyond_149 hne hq, State.access_none]; rfl

/-! ### The cells of the select table -/

/-- The components of the slots, in the order of the rows and columns of R90. -/
def State.components (s : State) : List (List Half) :=
  [[s.acc.x, s.acc.y, s.acc.z], [s.lin.x, s.lin.y, s.lin.z], [s.gyr.x, s.gyr.y, s.gyr.z], [s.mag.x, s.mag.y, s.mag.z],
   [s.quat.i, s.quat.j, s.quat.k, s.quat.real, s.quat.radacc], [s.fgyr.x, s.fgyr.y, s.fgyr.z],
   [s.rawacc.x, s.rawacc.y, s.rawacc.z], [s.rawgyr.x, s.rawgyr.y, s.rawgyr.z], [s.rawmag.x, s.rawmag.y, s.rawmag.z],
   [s.stepCnt.val], [s.stab.val], [s.act.val]]

theorem VecSlot.comp_eq (v : VecSlot) (n : Nat) : v.comp n = [v.x, v.y, v.z][n]? := by
  rcases n with _ | _ | _ | n <;> rfl

theorem QuatSlot.comp_eq (v : QuatSlot) (n : Nat) : v.comp n = [v.i, v.j, v.k, v.real, v.radacc][n]? := by
  rcases n with _ | _ | _ | _ | _ | n <;> rfl

theorem FgyrSlot.comp_eq (v : FgyrSlot) (n : Nat) : v.comp n = [v.x, v.y, v.z][n]? := by
  rcases n with _ | _ | _ | n <;> rfl

theorem ScalarSlot.comp_eq (v : ScalarSlot) (n : Nat) : v.comp n = [v.val][n]? := by
  rcases n with _ | n <;> rfl

/-- A select is a row and a column of the components. -/
theorem State.cell_eq (s : State) (slot comp : Byte) :
    s.cell slot comp = s.components[slot.toNat]?.bind (·[comp.toNat]?) := by
  simp only [State.cell, VecSlot.comp_eq, QuatSlot.comp_eq, FgyrSlot.comp_eq, ScalarSlot.comp_eq]
  generalize slot.toNat = n
  rcases n with _ | _ | _ | _ | _ | _ | _ | _ | _ | _ | _ | _ | n <;> rfl

/-- The table of cells lists each component under the codes of its row and column. -/
theorem State.cellTable_eq (s : State) :
    s.cellTable = (s.components.mapIdx fun slot row =>
      row.mapIdx fun comp v => (BitVec.ofNat 8 slot, BitVec.ofNat 8 comp, v)).flatten := rfl

/-- Every cell that a select names is in the table. -/
theorem State.mem_cellTable_of_cell {s : State} {slot comp : Byte} {v : Half} (h : s.cell slot comp = some v) :
    (slot, comp, v) ∈ s.cellTable := by
  rw [State.cell_eq] at h
  obtain ⟨row, hrow, hv⟩ := Option.bind_eq_some_iff.mp h
  obtain ⟨hslot, rfl⟩ := List.getElem?_eq_some_iff.mp hrow
  obtain ⟨hcomp, rfl⟩ := List.getElem?_eq_some_iff.mp hv
  rw [State.cellTable_eq, List.mem_flatten]
  refine ⟨_, List.mem_mapIdx.mpr ⟨slot.toNat, hslot, rfl⟩, List.mem_mapIdx.mpr ⟨comp.toNat, hcomp, ?_⟩⟩
  rw [BitVec.ofNat_toNat, BitVec.ofNat_toNat, BitVec.setWidth_eq, BitVec.setWidth_eq]

/-- Every row of the table is a cell. -/
theorem State.cell_of_mem_cellTable {s : State} : ∀ r ∈ s.cellTable, s.cell r.1 r.2.1 = some r.2.2 := by
  simp [State.cellTable, State.convertibleTable, State.plainTable, State.cell_eq, State.components]

/-- A select outside the table names no cell. -/
theorem State.cell_eq_none {s : State} {slot comp : Byte} (h : ∀ r ∈ s.cellTable, ¬ (r.1 = slot ∧ r.2.1 = comp)) :
    s.cell slot comp = none :=
  Option.eq_none_iff_forall_ne_some.mpr fun _ hv => h _ (State.mem_cellTable_of_cell hv) ⟨rfl, rfl⟩

/-- Settles O52: the table of cells is what `State.cell` answers. -/
theorem getrReturnsTheStoredPattern : Obligations.GetrReturnsTheStoredPattern := by
  intro s
  refine ⟨fun r hr => ?_, fun slot comp hout => ?_⟩
  · rw [exec_getr, State.cell_of_mem_cellTable r hr, Option.map_some, State.access_some, BitVec.ofNat_toNat]; rfl
  · rw [exec_getr, State.cell_eq_none hout, Option.map_none, State.access_none]; rfl

/-! ### The cells with a Q-point -/

theorem qPoint_of_mem_convertibleTable {s : State} :
    ∀ r ∈ s.convertibleTable, qPoint s.cfg r.1 r.2.1 = some r.2.2.2 := by
  simp [State.convertibleTable, qPoint]

theorem qPoint_of_mem_plainTable {s : State} : ∀ r ∈ s.plainTable, qPoint s.cfg r.1 r.2.1 = none := by
  simp [State.plainTable, qPoint]

theorem State.cell_of_mem_convertibleTable {s : State} {r : Byte × Byte × Half × Byte} (h : r ∈ s.convertibleTable) :
    s.cell r.1 r.2.1 = some r.2.2.1 :=
  State.cell_of_mem_cellTable (r.1, r.2.1, r.2.2.1) (List.mem_append_left _ (List.mem_map_of_mem h))

/-- The cells with a Q-point are the convertible ones: the table of cells is theirs and that of the cells without one. -/
theorem State.mem_convertibleTable_of_cell {s : State} {slot comp : Byte} {v : Half} {q : Byte}
    (hv : s.cell slot comp = some v) (hq : qPoint s.cfg slot comp = some q) :
    (slot, comp, v, q) ∈ s.convertibleTable := by
  rcases List.mem_append.mp (State.mem_cellTable_of_cell hv) with hmem | hplain
  · obtain ⟨r, hr, heq⟩ := List.mem_map.mp hmem
    cases heq
    cases hq.symm.trans (qPoint_of_mem_convertibleTable r hr)
    exact hr
  · cases hq.symm.trans (qPoint_of_mem_plainTable _ hplain)

theorem State.cellFloat_of_mem {s : State} {r : Byte × Byte × Half × Byte} (h : r ∈ s.convertibleTable) :
    s.cellFloat r.1 r.2.1 = some (f32bits (s16 r.2.2.1) r.2.2.2.toNat) := by
  rw [State.cellFloat, State.cell_of_mem_convertibleTable h, qPoint_of_mem_convertibleTable r h]

/-- A select outside the convertible table names no number: it lacks the cell or the Q-point. -/
theorem State.cellFloat_eq_none {s : State} {slot comp : Byte}
    (h : ∀ r ∈ s.convertibleTable, ¬ (r.1 = slot ∧ r.2.1 = comp)) : s.cellFloat slot comp = none := by
  unfold State.cellFloat
  split
  · next v q hv hq => exact absurd ⟨rfl, rfl⟩ (h _ (State.mem_convertibleTable_of_cell hv hq))
  · rfl

/-- The Q-points of a legal configuration are 149 at most, where every pattern converts (R9). -/
theorem State.convertible_qPoint_legal {s : State} (hcfg : s.cfg.WellFormed) :
    ∀ r ∈ s.convertibleTable, r.2.2.2.toNat ≤ 149 := by
  have hmem : ∀ r ∈ s.convertibleTable, r.2.2.2 ∈ s.cfg.qPoints := by
    simp [State.convertibleTable, Config.qPoints]
  exact fun r hr => hcfg.qPoints _ (hmem r hr)

/-- Settles O53: both operations answer `f32bits` of the stored pattern and the Q-point. -/
theorem getfIsCvtOfTheStoredPattern : Obligations.GetfIsCvtOfTheStoredPattern := by
  intro s hcfg
  refine ⟨fun r hr => ⟨f32bits (s16 r.2.2.1) r.2.2.2.toNat, ?getf, ?cvt⟩, fun slot comp hout => ?refused⟩
  case getf => rw [exec_getf, State.cellFloat_of_mem hr, State.access_some]; rfl
  case cvt => rw [exec_cvt, convert_upto_149 (State.convertible_qPoint_legal hcfg r hr), State.access_some]; rfl
  case refused => rw [exec_getf, State.cellFloat_eq_none hout, State.access_none]; rfl

/-! ### The accuracy and the timestamp of a slot -/

theorem State.stamp_of_mem_stampTable {s : State} :
    ∀ r ∈ s.stampTable, s.slotAccy r.1 = some r.2.1 ∧ s.slotTs r.1 = some r.2.2 := by
  simp [State.stampTable, State.slotAccy, State.slotTs]

/-- `FGYR` and the codes above the last slot have neither (R190, R191). -/
theorem State.stamp_eq_none (s : State) {slot : Byte} (h : slot = 5 ∨ 11 < slot.toNat) :
    s.slotAccy slot = none ∧ s.slotTs slot = none := by
  rcases h with rfl | hbeyond
  · exact ⟨rfl, rfl⟩
  · obtain ⟨k, hk⟩ : ∃ k, slot.toNat = k + 12 := ⟨slot.toNat - 12, by omega⟩
    rw [State.slotAccy, State.slotTs, hk]
    exact ⟨rfl, rfl⟩

/-- Settles O54. -/
theorem getaAndGettReturnTheStamp : Obligations.GetaAndGettReturnTheStamp := by
  intro s
  refine ⟨fun r hr => ?stamped, fun slot hout => ?refused⟩
  case stamped =>
    obtain ⟨haccy, hts⟩ := State.stamp_of_mem_stampTable r hr
    rw [exec_geta, exec_gett, haccy, hts, Option.map_some, State.access_some, State.access_some, BitVec.ofNat_toNat]
    exact ⟨rfl, rfl⟩
  case refused =>
    obtain ⟨haccy, hts⟩ := s.stamp_eq_none hout
    rw [exec_geta, exec_gett, haccy, hts, Option.map_none, State.access_none]
    exact ⟨rfl, rfl⟩

end Sys2Proof.Machine
end

section
/-! PROOFS. Host access and `CONNECT` (45_host_access.md): what `LDB`, `STB` and `RDSR` answer, the rows of the status
register map, what a connection reset leaves, then O57, O58, O13 and O56. -/

namespace Sys2Proof.Machine

open Sys2Proof

/-! ### `STB` -/

theorem exec_stb_inRange {s : State} {addr : Half} (h : addr.toNat < s.cfg.maxPayload) (b : Byte) :
    exec (.stb addr b) s = .next ((s.writeByte addr.toNat b).report .cNone .ok 0) :=
  congrArg Host.Outcome.next (if_pos h)

theorem exec_stb_beyond {s : State} {addr : Half} (h : s.cfg.maxPayload ≤ addr.toNat) (b : Byte) :
    exec (.stb addr b) s = .next s.refuse :=
  congrArg Host.Outcome.next (if_neg (by omega))

theorem State.readByte_report (c : Cause) (r : Res) (d : Word) (s : State) (a : Nat) :
    (s.report c r d).readByte a = s.readByte a :=
  State.readByte_congr rfl rfl a

/-- Settles O57: in the buffer `STB` is one `writeByte`, and beyond it the refusal is the whole effect. -/
theorem stbStoresOneByte : Obligations.StbStoresOneByte := by
  intro s addr b
  refine ⟨fun hin => ⟨_, exec_stb_inRange hin b, ?same, ?others, rfl, rfl, rfl, rfl⟩, fun hout => ?refused⟩
  case same => rw [State.readByte_report, State.readByte_writeByte_same]
  case others =>
    intro a ha
    rw [State.readByte_report, State.readByte_writeByte_ne b s ha]
  case refused => rw [exec_stb_beyond hout, State.refuse_eq]; rfl

/-! ### `RDSR` -/

theorem exec_rdsr (sel : Byte) (s : State) : exec (.rdsr sel) s = .next (s.access (s.statusReg sel)) := rfl

/-- `RXSTAT` as the number its two flags make (R46). -/
theorem State.rxstat_eq (s : State) : s.rxstat = BitVec.ofNat 32 (s.rxvalid.toNat + 2 * s.trunc.toNat) := by
  unfold State.rxstat
  cases s.rxvalid <;> cases s.trunc <;> rfl

/-- The header word as the number its bytes make, the first the lowest (R70). -/
theorem Header.word_eq (h : Header) :
    h.word = BitVec.ofNat 32 (h.b0.toNat + 256 * h.b1.toNat + 65536 * h.b2.toNat + 16777216 * h.b3.toNat) := by
  apply BitVec.eq_of_toNat_eq
  have h0 := h.b0.isLt
  have h1 := h.b1.isLt
  have h2 := h.b2.isLt
  have h3 := h.b3.isLt
  rw [Header.word, BitVec.toNat_append, BitVec.toNat_append, BitVec.toNat_append, ← Nat.shiftLeft_add_eq_or_of_lt h0,
    ← Nat.shiftLeft_add_eq_or_of_lt h1, ← Nat.shiftLeft_add_eq_or_of_lt h2, BitVec.toNat_ofNat]
  simp only [Nat.shiftLeft_eq]
  omega

/-- Every row of the status register map is the register its select names. -/
theorem State.statusReg_of_mem_statusTable {s : State} :
    ∀ r ∈ s.statusTable, s.statusReg r.1 = some (BitVec.ofNat 32 r.2) := by
  simp [State.statusTable, State.statusReg, State.rxstat_eq, Header.word_eq]

/-- Every select that names a register is in the map. -/
theorem State.mem_statusTable_of_statusReg {s : State} {sel : Byte} {d : Word} (h : s.statusReg sel = some d) :
    ∃ r ∈ s.statusTable, r.1 = sel := by
  have hrow (k : Nat) (hk : sel.toNat = k) : sel = BitVec.ofNat 8 k := by
    rw [← hk, BitVec.ofNat_toNat, BitVec.setWidth_eq]
  unfold State.statusReg at h
  split at h
  case h_17 => cases h
  all_goals
    rename_i hk
    simp [State.statusTable, hrow _ hk]

/-- A select outside the map names no register. -/
theorem State.statusReg_eq_none {s : State} {sel : Byte} (h : ∀ r ∈ s.statusTable, r.1 ≠ sel) :
    s.statusReg sel = none := by
  refine Option.eq_none_iff_forall_ne_some.mpr fun _ hreg => ?_
  obtain ⟨r, hr, hsel⟩ := State.mem_statusTable_of_statusReg hreg
  exact h r hr hsel

/-- Settles O58: the status register map is what `State.statusReg` answers. -/
theorem rdsrReturnsTheStatusRegister : Obligations.RdsrReturnsTheStatusRegister := by
  intro s
  refine ⟨fun r hr => ?row, fun sel hout => ?refused⟩
  case row => rw [exec_rdsr, State.statusReg_of_mem_statusTable r hr, State.access_some]; rfl
  case refused => rw [exec_rdsr, State.statusReg_eq_none hout, State.access_none]; rfl

/-! ### `CONNECT` -/

theorem exec_connect (s : State) : exec .connect s = .next s.connect := rfl

/-- Cleared counters read 0, and so does a select that names none (R21). -/
theorem State.seqRead_of_cleared {s : State} (h : s.seq = #v[0, 0, 0, 0, 0, 0]) (c : Nat) : s.seqRead c = 0 := by
  have hseq : s.seq = Vector.replicate 6 0 := h
  rw [State.seqRead, hseq, Vector.getElem?_replicate]
  split <;> rfl

theorem State.connect_resetRegisters (s : State) : s.connect.ResetRegisters where
  counters := State.seqRead_of_cleared rfl
  header := rfl
  chan := rfl
  rxseq := rfl
  rxlen := rfl
  rxcnt := rfl
  valid := rfl
  trunc := rfl
  fsm := rfl
  cause := rfl
  lastCls := rfl
  lastRid := rfl

theorem State.connect_sameValueStore (s : State) : SameValueStore s s.connect := by
  constructor <;> rfl

theorem State.connect_sameBuf (s : State) : SameBuf s s.connect :=
  State.readByte_congr rfl rfl

theorem State.connect_sameTransport (s : State) : SameTransport s s.connect := by
  constructor <;> rfl

theorem State.connect_sameInstance (s : State) : SameInstance s s.connect := by
  constructor <;> rfl

theorem State.connect_connect (s : State) : s.connect.connect = s.connect := rfl

/-- Settles O13: the register table of `State.connect`, and its frame. -/
theorem connectResetsTheRegistersAndNothingElse : Obligations.ConnectResetsTheRegistersAndNothingElse := by
  intro s
  have hagain : exec .connect s.connect = .next s.connect := by rw [exec_connect, State.connect_connect]
  exact ⟨s.connect, exec_connect s, s.connect_resetRegisters, rfl, rfl, s.connect_sameValueStore, s.connect_sameBuf,
    s.connect_sameTransport, s.connect_sameInstance, hagain⟩

/-! ### `LDB` -/

theorem exec_ldb_inRange {s : State} {addr : Half} (h : addr.toNat < s.cfg.maxPayload) :
    exec (.ldb addr) s = .next (s.access (some ((s.readByte addr.toNat).setWidth 32))) :=
  congrArg (fun v => Host.Outcome.next (s.access v)) (if_pos h)

theorem exec_ldb_beyond {s : State} {addr : Half} (h : s.cfg.maxPayload ≤ addr.toNat) :
    exec (.ldb addr) s = .next (s.access none) :=
  congrArg (fun v => Host.Outcome.next (s.access v)) (if_neg (by omega))

/-- Settles O56: one read on either side of the bound. -/
theorem ldbReturnsTheByte : Obligations.LdbReturnsTheByte := by
  intro s addr
  refine ⟨fun hin => ?byte, fun hout => ?refused⟩
  case byte => rw [exec_ldb_inRange hin, State.access_some, BitVec.ofNat_toNat]; rfl
  case refused => rw [exec_ldb_beyond hout, State.access_none]; rfl

end Sys2Proof.Machine
end

section
/-! PROOFS. Refusals (60_exceptions.md): which operands the reads answer, which operations end without a refusal, then
O23. -/

namespace Sys2Proof.Machine

open Sys2Proof

/-! ### The legal operands of a read are those it answers -/

/-- `RDSR` answers the legal selects (R46, R89). -/
theorem State.isSome_statusReg (s : State) (sel : Byte) : (s.statusReg sel).isSome = legalStatusSel sel := by
  unfold State.statusReg legalStatusSel
  split
  case h_17 =>
    simp only [imp_false] at *
    simp only [Option.isSome_none, Bool.false_eq, Bool.or_eq_false_iff, Bool.and_eq_false_iff, decide_eq_false_iff_not]
    omega
  all_goals simp [*]

/-- A row of the components is as long as R90 says, and there is no row above slot 11. -/
theorem State.length_components (s : State) (slot : Byte) :
    (s.components[slot.toNat]?.map List.length).getD 0 = componentCount slot := by
  rcases Nat.lt_or_ge slot.toNat 12 with hslot | hbeyond
  · unfold componentCount
    generalize slot.toNat = n at hslot
    interval_cases n <;> rfl
  · rw [List.getElem?_eq_none hbeyond, componentCount, if_neg (by omega), if_neg (by omega), if_neg (by omega),
      if_neg (by omega)]
    rfl

/-- `GETR` answers the filled cells (R90, R187). -/
theorem State.isSome_cell (s : State) (slot comp : Byte) : (s.cell slot comp).isSome = legalCell slot comp := by
  rw [State.cell_eq, legalCell, ← s.length_components slot]
  cases s.components[slot.toNat]? with
  | none => rfl
  | some row => exact Bool.eq_iff_iff.mpr (by simp)

theorem isSome_qPoint (cfg : Config) (slot comp : Byte) : (qPoint cfg slot comp).isSome = decide (slot.toNat ≤ 5) := by
  unfold qPoint
  split
  case h_5 => split <;> simp [*]
  case h_7 =>
    simp only [imp_false] at *
    simp only [Option.isSome_none, Bool.false_eq, decide_eq_false_iff_not]
    omega
  all_goals simp [*]

/-- `GETF` answers the filled cells with a Q-point (R188, R189). -/
theorem State.isSome_cellFloat (s : State) (slot comp : Byte) :
    (s.cellFloat slot comp).isSome = convertibleCell slot comp := by
  rw [convertibleCell, ← isSome_qPoint s.cfg slot comp, ← s.isSome_cell slot comp, State.cellFloat]
  cases s.cell slot comp <;> cases qPoint s.cfg slot comp <;> rfl

/-- `GETA` answers every slot but `FGYR` (R190). -/
theorem State.isSome_slotAccy (s : State) (slot : Byte) : (s.slotAccy slot).isSome = stampedSlot slot := by
  unfold State.slotAccy stampedSlot
  split
  case h_12 =>
    simp only [imp_false] at *
    simp only [Option.isSome_none, Bool.false_eq, Bool.and_eq_false_iff, decide_eq_false_iff_not]
    omega
  all_goals simp [*]

/-- `GETT` answers the slots that `GETA` answers (R190, R191). -/
theorem State.isSome_slotTs (s : State) (slot : Byte) : (s.slotTs slot).isSome = stampedSlot slot := by
  rw [← s.isSome_slotAccy slot, State.slotTs, State.slotAccy]
  split <;> rfl

/-! ### Operations that end without a refusal -/

/-- Neither the result nor the cause is a refusal (R222, R223). -/
def State.Unrefused (t : State) : Prop := t.res ≠ .refused ∧ t.cause ≠ .refused

/-- The operation completes, and not by a refusal. -/
def RunsUnrefused (i : Instr) (s : State) : Prop := ∃ t, exec i s = .next t ∧ t.Unrefused

theorem State.unrefused_of_ok {t : State} (hres : t.res = .ok) (hcause : t.cause = .cNone) : t.Unrefused := by
  simp [State.Unrefused, hres, hcause]

theorem State.unrefused_returningNone (cls : PktClass) {c : Cause} (hc : c ≠ .refused) (s : State) :
    (s.returningNone cls c).Unrefused :=
  ⟨Res.noConfusion, hc⟩

/-- A `SEND` that is run is answered by the transport, and only the transport decides how it ends (R100). -/
theorem State.unrefused_send (ch : Byte) (n : Nat) (s : State) : (s.send ch n).Unrefused := by
  cases hans : (nextWrite s.wrAnswers s.draws).1 with
  | ok =>
    obtain ⟨hres, hcause⟩ := State.send_ok ch n hans
    exact State.unrefused_of_ok hres hcause
  | nack =>
    obtain ⟨hres, hcause⟩ := State.send_nack ch n hans
    simp [State.Unrefused, hres, hcause]

theorem State.unrefused_recv (s : State) : s.recv.Unrefused := by
  obtain ⟨_, _, _, _, _, _, _, _, _, _, _, _, _, _, hrecv, -, -, -, hend⟩ := s.recv_cases
  rw [hrecv]
  rcases hend with ⟨-, -, -, ⟨rfl, -, rfl | rfl⟩ | ⟨rfl, -, rfl | rfl⟩⟩ | ⟨-, rfl, -, rfl, -⟩ <;>
    exact ⟨Res.noConfusion, Cause.noConfusion⟩

theorem State.unrefused_gyroPacket (s : State) : s.gyroPacket.Unrefused := by
  rcases Nat.lt_or_ge s.rxcnt.toNat 14 with hshort | hlong
  · rw [State.gyroPacket_eq_returningNone hshort]
    exact s.unrefused_returningNone .gyro Cause.noConfusion
  · rw [State.gyroPacket_eq_returning hlong]
    exact State.unrefused_of_ok rfl rfl

/-! ### `PARSE` and its rows -/

theorem runsUnrefused_rptRow (r : RptRow) (s : State) : RunsUnrefused r.instr s := by
  rcases Nat.lt_or_ge s.rxcnt.toNat 13 with hshort | hlong
  · exact ⟨_, exec_rptRow_short r hshort, s.unrefused_returningNone .sensor Cause.noConfusion⟩
  · cases hid : reportId s.cfg r with
    | none => exact ⟨_, exec_rptRow_unknown hlong hid, s.unrefused_returningNone .sensor Cause.noConfusion⟩
    | some rid =>
      obtain ⟨hres, hcause, -⟩ := s.returning_fillSlot r rid
      exact ⟨_, exec_rptRow_known hlong hid, State.unrefused_of_ok hres hcause⟩

theorem State.defaultCause_ne_refused (s : State) : s.defaultCause ≠ .refused := by
  unfold State.defaultCause
  split <;> exact Cause.noConfusion

theorem runsUnrefused_defaultRow {i : Instr} (h : i ∈ [Instr.pktCtlOther, .pktRptOther]) (s : State) :
    RunsUnrefused i s :=
  ⟨_, exec_defaultRow h s, s.unrefused_returningNone .ignored s.defaultCause_ne_refused⟩

theorem runsUnrefused_undecoded {i : Instr} (h : i ∈ [Instr.pktCmd, .pktExe, .pktWake]) (s : State) :
    RunsUnrefused i s :=
  ⟨_, exec_undecoded h s, s.unrefused_returningNone .ignored Cause.noConfusion⟩

theorem State.unrefused_route (cls : PktClass) (b : Byte) (s : State) : (s.route cls b).Unrefused :=
  State.unrefused_of_ok rfl rfl

theorem runsUnrefused_pktRow (r : PktRow) (s : State) : RunsUnrefused r.instr s := by
  cases r with
  | cmd | exe | wake => exact runsUnrefused_undecoded (by simp [PktRow.instr]) s
  | ctlProdid | ctlCmdresp | ctlFrsresp => exact ⟨_, rfl, s.unrefused_route _ _⟩
  | ctlOther | rptOther => exact runsUnrefused_defaultRow (by simp [PktRow.instr]) s
  | rptBasets =>
    obtain ⟨t, hexec, hend⟩ := runsUnrefused_rptRow (decodeReport s.cfg (s.readByte 5)) s
    exact ⟨t, (exec_pktRptBasets s).trans hexec, hend⟩
  | gyro => exact ⟨_, rfl, s.unrefused_gyroPacket⟩
  | badchan => exact ⟨_, exec_pktBadchan s, s.unrefused_returningNone .ignored Cause.noConfusion⟩

theorem runsUnrefused_parse (s : State) : RunsUnrefused .parse s := by
  cases hvalid : s.rxvalid with
  | false => exact ⟨_, exec_parse_none hvalid, s.unrefused_returningNone .none Cause.noConfusion⟩
  | true =>
    obtain ⟨t, hexec, hend⟩ := runsUnrefused_pktRow (decodePacket s.cfg s.rxchan s.firstByte) s
    exact ⟨t, (exec_parse_valid hvalid).trans hexec, hend⟩

/-- The rows of the class map (R76). -/
def packetRows : List PktRow :=
  [.cmd, .exe, .ctlProdid, .ctlCmdresp, .ctlFrsresp, .ctlOther, .rptBasets, .rptOther, .wake, .gyro, .badchan]

/-- What parses the held packet is `PARSE` or a row of one of the two maps. -/
theorem row_of_parsesHeldPacket {i : Instr} (h : parsesHeldPacket i = true) :
    i = .parse ∨ (∃ r : PktRow, r.instr = i) ∨ ∃ r : RptRow, r.instr = i := by
  have hrow : i = .parse ∨ i ∈ packetRows.map PktRow.instr ∨ i ∈ (RptRow.other :: knownReports).map RptRow.instr := by
    cases i
    case connect | send | recv | ldb | stb | rdsr | cvt | getr | getf | geta | gett => exact Bool.noConfusion h
    all_goals simp [packetRows, knownReports, PktRow.instr, RptRow.instr]
  simp only [List.mem_map] at hrow
  exact hrow.imp_right (Or.imp (fun ⟨r, _, hr⟩ => ⟨r, hr⟩) (fun ⟨r, _, hr⟩ => ⟨r, hr⟩))

theorem runsUnrefused_of_parsesHeldPacket {i : Instr} (h : parsesHeldPacket i = true) (s : State) :
    RunsUnrefused i s := by
  rcases row_of_parsesHeldPacket h with rfl | ⟨r, rfl⟩ | ⟨r, rfl⟩
  · exact runsUnrefused_parse s
  · exact runsUnrefused_pktRow r s
  · exact runsUnrefused_rptRow r s

/-- `PARSE` and its rows have no operand (R89). -/
theorem wellFormed_of_parsesHeldPacket {i : Instr} (h : parsesHeldPacket i = true) (cfg : Config) :
    i.wellFormed cfg = true := by
  rcases row_of_parsesHeldPacket h with rfl | ⟨r, rfl⟩ | ⟨r, rfl⟩
  · rfl
  · cases r <;> rfl
  · cases r <;> rfl

/-! ### The operands decide -/

/-- Illegal operands are refused with no other effect, and legal ones are not refused (R228). -/
def OperandsDecide (i : Instr) (s : State) : Prop :=
  (i.wellFormed s.cfg = false → exec i s = .next s.refuse) ∧ (i.wellFormed s.cfg = true → RunsUnrefused i s)

theorem operandsDecide_of_wellFormed {i : Instr} {s : State} (hwf : i.wellFormed s.cfg = true)
    (hrun : RunsUnrefused i s) : OperandsDecide i s :=
  ⟨fun hill => Bool.noConfusion (hill.symm.trans hwf), fun _ => hrun⟩

/-- A read decides by its operands when the legal ones are those it answers. -/
theorem operandsDecide_of_access {i : Instr} {s : State} {v : Option Word} (hexec : exec i s = .next (s.access v))
    (hwf : v.isSome = i.wellFormed s.cfg) : OperandsDecide i s := by
  cases v with
  | none => exact ⟨fun _ => hexec, fun hlegal => Bool.noConfusion (hwf.trans hlegal)⟩
  | some d => exact operandsDecide_of_wellFormed hwf.symm ⟨_, hexec, State.unrefused_of_ok rfl rfl⟩

theorem operandsDecide_send (ch : Byte) (n : Half) (s : State) : OperandsDecide (.send ch n) s := by
  by_cases h : 5 < ch.toNat ∨ s.cfg.maxPayload < n.toNat
  · refine ⟨fun _ => exec_send_illegal h, fun hlegal => ?_⟩
    simp only [Instr.wellFormed, Bool.and_eq_true, decide_eq_true_iff] at hlegal
    omega
  · refine operandsDecide_of_wellFormed ?_ ⟨_, exec_send_legal (by omega) (by omega), s.unrefused_send ch n.toNat⟩
    simp only [Instr.wellFormed, Bool.and_eq_true, decide_eq_true_iff]
    omega

theorem operandsDecide_stb (addr : Half) (b : Byte) (s : State) : OperandsDecide (.stb addr b) s := by
  rcases Nat.lt_or_ge addr.toNat s.cfg.maxPayload with hin | hout
  · exact operandsDecide_of_wellFormed (decide_eq_true hin)
      ⟨_, exec_stb_inRange hin b, State.unrefused_of_ok rfl rfl⟩
  · exact ⟨fun _ => exec_stb_beyond hout b, fun hlegal => absurd (of_decide_eq_true hlegal) (by omega)⟩

theorem operandsDecide_ldb (addr : Half) (s : State) : OperandsDecide (.ldb addr) s := by
  rcases Nat.lt_or_ge addr.toNat s.cfg.maxPayload with hin | hout
  · exact operandsDecide_of_access (exec_ldb_inRange hin) (decide_eq_true hin).symm
  · exact operandsDecide_of_access (exec_ldb_beyond hout) (decide_eq_false (by omega)).symm

/-- Every operation but `CVT`, whose refusal depends on the values of its pair (R184). -/
theorem operandsDecide_of_ne_cvt {i : Instr} (hcvt : ∀ raw q, i ≠ .cvt raw q) (s : State) : OperandsDecide i s := by
  cases hparse : parsesHeldPacket i with
  | true =>
    exact operandsDecide_of_wellFormed (wellFormed_of_parsesHeldPacket hparse s.cfg)
      (runsUnrefused_of_parsesHeldPacket hparse s)
  | false =>
    cases i with
    | connect => exact operandsDecide_of_wellFormed rfl ⟨_, exec_connect s, State.unrefused_of_ok rfl rfl⟩
    | send ch n => exact operandsDecide_send ch n s
    | recv => exact operandsDecide_of_wellFormed rfl ⟨_, rfl, s.unrefused_recv⟩
    | ldb addr => exact operandsDecide_ldb addr s
    | stb addr b => exact operandsDecide_stb addr b s
    | rdsr sel => exact operandsDecide_of_access (exec_rdsr sel s) (s.isSome_statusReg sel)
    | cvt raw q => exact absurd rfl (hcvt raw q)
    | getr slot comp =>
      exact operandsDecide_of_access (exec_getr slot comp s) (Option.isSome_map.trans (s.isSome_cell slot comp))
    | getf slot comp => exact operandsDecide_of_access (exec_getf slot comp s) (s.isSome_cellFloat slot comp)
    | geta slot =>
      exact operandsDecide_of_access (exec_geta slot s) (Option.isSome_map.trans (s.isSome_slotAccy slot))
    | gett slot => exact operandsDecide_of_access (exec_gett slot s) (s.isSome_slotTs slot)
    | _ => exact Bool.noConfusion hparse

/-- Settles O23: `CVT` has no illegal operand, and every other operation decides by its operands. -/
theorem refusedExactlyForIllegalOperands : Obligations.RefusedExactlyForIllegalOperands := by
  intro i s
  by_cases hcvt : ∃ raw q, i = .cvt raw q
  · obtain ⟨raw, q, rfl⟩ := hcvt
    exact ⟨fun hill => Bool.noConfusion hill, fun _ hne => absurd rfl (hne raw q)⟩
  · obtain ⟨hillegal, hlegal⟩ := operandsDecide_of_ne_cvt (fun raw q h => hcvt ⟨raw, q, h⟩) s
    exact ⟨hillegal, fun hwf _ => hlegal hwf⟩

end Sys2Proof.Machine
end

section
/-! PROOFS. Encoding (30_encoding.md): the rows of the opcode table read as tests on bytes, what the two packet maps give
an identifier, then O1, O2 and O3. -/

namespace Sys2Proof.Machine

open Sys2Proof

/-! ### What the class map gives a first byte -/

/-- The three Control identifiers are distinct, so each has a class row of its own (R9, R76). -/
theorem decodePacket_control {cfg : Config} (hcfg : cfg.WellFormed) :
    decodePacket cfg 2 (some cfg.ridProductIdResponse) = .ctlProdid ∧
    decodePacket cfg 2 (some cfg.ridCommandResponse) = .ctlCmdresp ∧
    decodePacket cfg 2 (some cfg.ridFrsReadResponse) = .ctlFrsresp := by
  have hdistinct := hcfg.controlDistinct
  simp only [Config.controlIds, List.nodup_cons, List.mem_cons, List.not_mem_nil, or_false, not_or] at hdistinct
  obtain ⟨⟨hcmd, hfrs⟩, hfrs', -⟩ := hdistinct
  simp [decodePacket, Ne.symm hcmd, Ne.symm hfrs, Ne.symm hfrs']

theorem decodePacket_basets (cfg : Config) : decodePacket cfg 3 (some cfg.ridBaseTimestamp) = .rptBasets :=
  if_pos rfl

/-- Identifier 0 belongs to no report type (R9, R80). -/
theorem decodeReport_zero {cfg : Config} (hcfg : cfg.WellFormed) : decodeReport cfg 0 = .other := by
  have hnot : (0 : Byte) ∉ cfg.sensorIds := fun hmem =>
    hcfg.returnedNonzero 0 (List.mem_append_left _ (List.mem_append_right _ hmem)) rfl
  have hrow := reportId_decodeReport cfg 0
  rw [if_neg hnot] at hrow
  cases hdec : decodeReport cfg 0 with
  | other => rfl
  | _ => rw [hdec] at hrow; cases hrow

/-! ### Decode after encode -/

theorem decode_encode_pktRow {cfg : Config} (hcfg : cfg.WellFormed) (r : PktRow) :
    decode cfg (encode cfg r.instr) = .ok r.instr := by
  obtain ⟨hprodid, hcmdresp, hfrsresp⟩ := decodePacket_control hcfg
  cases r with
  | ctlProdid => exact (decode_packetWord_some cfg 2 _).trans (by rw [hprodid])
  | ctlCmdresp => exact (decode_packetWord_some cfg 2 _).trans (by rw [hcmdresp])
  | ctlFrsresp => exact (decode_packetWord_some cfg 2 _).trans (by rw [hfrsresp])
  | rptBasets => exact (decode_packetWord_some cfg 3 _).trans (by rw [decodePacket_basets])
  | cmd | exe | ctlOther | rptOther | wake | gyro | badchan => exact decode_packetWord_none cfg _

/-- The encoder writes a report type as its identifier, and the default type as 0. -/
theorem encode_rptRow (cfg : Config) (r : RptRow) :
    encode cfg r.instr = .report ((reportId cfg r).getD 0) := by
  cases r <;> rfl

theorem decode_encode_rptRow {cfg : Config} (hcfg : cfg.WellFormed) (r : RptRow) :
    decode cfg (encode cfg r.instr) = .ok r.instr := by
  rw [encode_rptRow, decode]
  cases hid : reportId cfg r with
  | some rid => rw [Option.getD_some, decodeReport_of_reportId hcfg hid]
  | none =>
    have hother : r = .other := by
      cases r with
      | other => rfl
      | _ => cases hid
    rw [hother, Option.getD_none, decodeReport_zero hcfg]

theorem decode_encode_hostOp {i : Instr} (h : parsesHeldPacket i = false) (cfg : Config) :
    decode cfg (encode cfg i) = .ok i := by
  cases i with
  | connect | send | recv | ldb | stb | rdsr | cvt | getr | getf | geta | gett => rfl
  | _ => exact Bool.noConfusion h

/-- Settles O1: a host operation is its code and its ports, and a row of a packet map is found again because the
identifiers of a legal configuration are distinct and not 0. -/
theorem decodingAnEncodedInstructionGivesItBack : Obligations.DecodingAnEncodedInstructionGivesItBack := by
  intro cfg i hcfg
  cases hparse : parsesHeldPacket i with
  | false => exact decode_encode_hostOp hparse cfg
  | true =>
    rcases row_of_parsesHeldPacket hparse with rfl | ⟨r, rfl⟩ | ⟨r, rfl⟩
    · rfl
    · exact decode_encode_pktRow hcfg r
    · exact decode_encode_rptRow hcfg r

/-- Settles O2: each word is run through the decoder. -/
theorem writtenOutWordsDecode : Obligations.WrittenOutWordsDecode :=
  ⟨rfl, rfl, rfl, rfl, rfl, rfl⟩

/-! ### The rows of the opcode table -/

theorem firstMatch_cons {α : Type} (a : α) (r : TableRow) (rows : List (α × TableRow)) (w cnt : Nat) :
    firstMatch ((a, r) :: rows) w cnt = if r.selects w cnt then some a else firstMatch rows w cnt := by
  rw [firstMatch, List.find?_cons]
  cases r.selects w cnt <;> rfl

/-- The row of a channel (R76). -/
def channelRow (ch : Nat) : TableRow := ⟨0x0000FF0000, ch <<< 16, 0⟩

/-- The row of a channel and a first payload byte (R76). -/
def firstByteRow (ch : Nat) (b : Byte) : TableRow := ⟨0xFF00FF0000, paramPattern (ch <<< 16) 32 b, 1⟩

/-- The row of an embedded report ID (R80). -/
def reportRow (rid : Byte) : TableRow := ⟨0xFF, paramPattern 0 0 rid, 13⟩

theorem pktTable_eq (cfg : Config) :
    pktTable cfg =
      [(.cmd, channelRow 0), (.exe, channelRow 1), (.ctlProdid, firstByteRow 2 cfg.ridProductIdResponse),
       (.ctlCmdresp, firstByteRow 2 cfg.ridCommandResponse), (.ctlFrsresp, firstByteRow 2 cfg.ridFrsReadResponse),
       (.ctlOther, channelRow 2), (.rptBasets, firstByteRow 3 cfg.ridBaseTimestamp), (.rptOther, channelRow 3),
       (.wake, channelRow 4), (.gyro, channelRow 5), (.badchan, ⟨0, 0, 0⟩)] := rfl

theorem rptTable_eq (cfg : Config) :
    rptTable cfg =
      [(.acc, reportRow cfg.ridAcc), (.lin, reportRow cfg.ridLin), (.gyr, reportRow cfg.ridGyr),
       (.mag, reportRow cfg.ridMag), (.rv, reportRow cfg.ridRv), (.rvv1, reportRow cfg.ridRvv1),
       (.rvv2, reportRow cfg.ridRvv2), (.rvv3, reportRow cfg.ridRvv3), (.step, reportRow cfg.ridStep),
       (.stab, reportRow cfg.ridStab), (.act, reportRow cfg.ridAct), (.rawacc, reportRow cfg.ridRawacc),
       (.rawgyr, reportRow cfg.ridRawgyr), (.rawmag, reportRow cfg.ridRawmag), (.other, ⟨0, 0, 13⟩)] := rfl

/-! ### Which words a row selects -/

/-- A row with mask 0 looks at the payload count alone. -/
theorem TableRow.selects_unmasked (needs w cnt : Nat) :
    (TableRow.mk 0 0 needs).selects w cnt = decide (needs ≤ cnt) := by
  simp [TableRow.selects]

/-- A byte mask keeps the byte in its place. -/
theorem and_byteMask (w k : Nat) : w &&& (0xFF <<< k) = (w >>> k % 256) <<< k := by
  refine Nat.eq_of_testBit_eq fun i => ?_
  rw [show (256 : Nat) = 2 ^ 8 from rfl, show (0xFF : Nat) = 2 ^ 8 - 1 from rfl]
  simp only [Nat.testBit_and, Nat.testBit_shiftLeft, Nat.testBit_two_pow_sub_one, Nat.testBit_mod_two_pow,
    Nat.testBit_shiftRight]
  by_cases hki : k ≤ i
  · simp [hki, Bool.and_comm]
  · simp [hki]

/-- The byte of a decode word that a shift names. -/
theorem toNat_extract_byte (dw : BitVec 40) (k : Nat) : (dw.extractLsb' k 8).toNat = dw.toNat >>> k % 256 :=
  BitVec.extractLsb'_toNat ..

theorem channelRow_selects (ch : Nat) (dw : BitVec 40) (cnt : Nat) :
    (channelRow ch).selects dw.toNat cnt = decide ((dw.extractLsb' 16 8).toNat = ch) := by
  have hmask : dw.toNat &&& 0x0000FF0000 = (dw.extractLsb' 16 8).toNat <<< 16 := by
    rw [toNat_extract_byte]
    exact and_byteMask dw.toNat 16
  simp only [TableRow.selects, channelRow, hmask, Nat.zero_le, decide_true, Bool.and_true, Nat.shiftLeft_eq]
  exact decide_eq_decide.mpr (by omega)

theorem firstByteRow_selects (ch : Nat) (hch : ch < 256) (b : Byte) (dw : BitVec 40) (cnt : Nat) :
    (firstByteRow ch b).selects dw.toNat cnt =
      decide ((dw.extractLsb' 16 8).toNat = ch ∧
        (if 1 ≤ cnt then some (dw.extractLsb' 32 8) else none) = some b) := by
  have hchannel := (dw.extractLsb' 16 8).isLt
  have hmask : dw.toNat &&& 0xFF00FF0000 =
      (dw.extractLsb' 32 8).toNat <<< 32 + (dw.extractLsb' 16 8).toNat <<< 16 := by
    rw [Nat.shiftLeft_add_eq_or_of_lt (by rw [Nat.shiftLeft_eq]; omega), toNat_extract_byte, toNat_extract_byte,
      ← and_byteMask, ← and_byteMask, ← Nat.and_or_distrib_left]
    rfl
  have hpattern : paramPattern (ch <<< 16) 32 b = b.toNat <<< 32 + ch <<< 16 := by
    rw [Nat.shiftLeft_add_eq_or_of_lt (by rw [Nat.shiftLeft_eq]; omega), paramPattern, Nat.or_comm]
  rw [TableRow.selects, firstByteRow, hmask, hpattern, ← Bool.decide_and, Nat.shiftLeft_eq, Nat.shiftLeft_eq,
    Nat.shiftLeft_eq, Nat.shiftLeft_eq]
  refine decide_eq_decide.mpr ?_
  dsimp only
  by_cases hcnt : 1 ≤ cnt
  · rw [if_pos hcnt, Option.some_inj, ← BitVec.toNat_inj]
    omega
  · simp [hcnt]

theorem reportRow_selects {cnt : Nat} (hcnt : 13 ≤ cnt) (a rid : Byte) :
    (reportRow a).selects rid.toNat cnt = decide (rid = a) := by
  have hmask : rid.toNat &&& 0xFF = rid.toNat := by
    rw [show (0xFF : Nat) = 2 ^ 8 - 1 from rfl, Nat.and_two_pow_sub_one_eq_mod]
    exact Nat.mod_eq_of_lt rid.isLt
  have hpattern : paramPattern 0 0 a = a.toNat := by simp [paramPattern]
  simp only [TableRow.selects, reportRow, hmask, hpattern, hcnt, decide_true, Bool.and_true]
  exact decide_eq_decide.mpr BitVec.toNat_inj

/-! ### The first row that selects -/

theorem firstMatch_pktTable (cfg : Config) (dw : BitVec 40) (cnt : Nat) :
    firstMatch (pktTable cfg) dw.toNat cnt = some (decodePacketWord cfg dw cnt) := by
  rw [pktTable_eq, decodePacketWord]
  simp only [firstMatch_cons, channelRow_selects, firstByteRow_selects _ (by decide : 2 < 256),
    firstByteRow_selects _ (by decide : 3 < 256), TableRow.selects_unmasked, decide_eq_true_eq]
  generalize (if 1 ≤ cnt then some (dw.extractLsb' 32 8) else none) = first
  generalize dw.extractLsb' 16 8 = ch
  unfold decodePacket
  generalize ch.toNat = n
  rcases n with _ | _ | _ | _ | _ | _ | n <;> simp [apply_ite some]

theorem firstMatch_rptTable {cnt : Nat} (hcnt : 13 ≤ cnt) (cfg : Config) (rid : Byte) :
    firstMatch (rptTable cfg) rid.toNat cnt = some (decodeReport cfg rid) := by
  simp only [rptTable_eq, firstMatch_cons, reportRow_selects hcnt, TableRow.selects_unmasked, decide_eq_true_eq, hcnt,
    if_true, decodeReport, apply_ite some]

/-- Settles O3: a row selects by the bytes it masks, which are the tests that the two decoders make in the same order. -/
theorem packetAndReportWordsTakeTheFirstTableRow : Obligations.PacketAndReportWordsTakeTheFirstTableRow :=
  fun cfg dw rid cnt => ⟨firstMatch_pktTable cfg dw cnt, fun hcnt => firstMatch_rptTable hcnt cfg rid⟩

end Sys2Proof.Machine
end

section
/-! PROOFS. Who writes what: the one inversion of `exec` (60_exceptions.md R220), then O9 and the frames of O18 to O22. -/

namespace Sys2Proof.Machine

open Sys2Proof

/-! ### What an instruction can do -/

/-- Every way an instruction can end in `s`, with the next state it leaves. -/
inductive State.Effect (s : State) : Instr → State → Prop
  | connect : s.Effect .connect s.connect
  | send {ch : Byte} {n : Half} (hch : ch.toNat ≤ 5) (hn : n.toNat ≤ s.cfg.maxPayload) :
      s.Effect (.send ch n) (s.send ch n.toNat)
  | recv : s.Effect .recv s.recv
  | stored {addr : Half} {b : Byte} (haddr : addr.toNat < s.cfg.maxPayload) :
      s.Effect (.stb addr b) ((s.writeByte addr.toNat b).report .cNone .ok 0)
  | parsed {i : Instr} {t : State} (hi : parsesHeldPacket i = true) (ht : s.Parsed t) : s.Effect i t
  | reported {i : Instr} (c : Cause) (r : Res) (d : Word) : s.Effect i (s.report c r d)

theorem exec_effect_send (ch : Byte) (n : Half) (s : State) :
    ∃ t, exec (.send ch n) s = .next t ∧ s.Effect (.send ch n) t := by
  by_cases h : 5 < ch.toNat ∨ s.cfg.maxPayload < n.toNat
  · exact ⟨_, exec_send_illegal h, .reported ..⟩
  · exact ⟨_, exec_send_legal (by omega) (by omega), .send (by omega) (by omega)⟩

theorem exec_effect_stb (addr : Half) (b : Byte) (s : State) :
    ∃ t, exec (.stb addr b) s = .next t ∧ s.Effect (.stb addr b) t := by
  rcases Nat.lt_or_ge addr.toNat s.cfg.maxPayload with hin | hout
  · exact ⟨_, exec_stb_inRange hin b, .stored hin⟩
  · exact ⟨_, exec_stb_beyond hout b, .reported ..⟩

theorem exec_effect_access {i : Instr} {s : State} {v : Option Word} (h : exec i s = .next (s.access v)) :
    ∃ t, exec i s = .next t ∧ s.Effect i t := by
  obtain ⟨c, r, d, heq⟩ := State.access_frame v s
  exact ⟨_, h.trans (by rw [heq]), .reported c r d⟩

/-- Every instruction answers a next state, and leaves one of these effects (R220, R234). -/
theorem exec_effect (i : Instr) (s : State) : ∃ t, exec i s = .next t ∧ s.Effect i t := by
  cases hparse : parsesHeldPacket i with
  | true =>
    obtain ⟨t, hexec, ht⟩ := exec_parsed hparse s
    exact ⟨t, hexec, .parsed hparse ht⟩
  | false =>
    cases i with
    | connect => exact ⟨_, exec_connect s, .connect⟩
    | send ch n => exact exec_effect_send ch n s
    | recv => exact ⟨_, rfl, .recv⟩
    | ldb addr => exact exec_effect_access rfl
    | stb addr b => exact exec_effect_stb addr b s
    | rdsr sel => exact exec_effect_access (exec_rdsr sel s)
    | cvt raw q => exact exec_effect_access (exec_cvt raw q s)
    | getr slot comp => exact exec_effect_access (exec_getr slot comp s)
    | getf slot comp => exact exec_effect_access (exec_getf slot comp s)
    | geta slot => exact exec_effect_access (exec_geta slot s)
    | gett slot => exact exec_effect_access (exec_gett slot s)
    | _ => exact Bool.noConfusion hparse

theorem effect_of_exec {i : Instr} {s t : State} (h : exec i s = .next t) : s.Effect i t := by
  obtain ⟨u, hu, heffect⟩ := exec_effect i s
  cases h.symm.trans hu
  exact heffect

/-- Settles O9. -/
theorem everyOperationEndsWithAResult : Obligations.EveryOperationEndsWithAResult := by
  intro i s
  obtain ⟨t, hexec, -⟩ := exec_effect i s
  exact ⟨t, hexec⟩

/-! ### Two effects that leave the block as it was -/

/-- Nothing differs but the verdict, the result and the Value Store. -/
structure SameBlock (s t : State) : Prop where
  seq : t.seq = s.seq
  buf : t.buf = s.buf
  packet : SamePacket s t
  transport : SameTransport s t
  inst : SameInstance s t

theorem State.Parsed.sameBlock {s t : State} (h : s.Parsed t) : SameBlock s t := by
  obtain ⟨_, _, _, _, _, _, _, _, _, _, _, _, _, _, _, _, _, rfl⟩ := h
  exact ⟨rfl, rfl, ⟨⟨rfl, rfl, rfl, rfl⟩, rfl, rfl, rfl, rfl⟩, ⟨rfl, rfl, rfl, rfl⟩, ⟨rfl, rfl, rfl⟩⟩

theorem State.report_sameBlock (c : Cause) (r : Res) (d : Word) (s : State) : SameBlock s (s.report c r d) :=
  ⟨rfl, rfl, ⟨⟨rfl, rfl, rfl, rfl⟩, rfl, rfl, rfl, rfl⟩, ⟨rfl, rfl, rfl, rfl⟩, ⟨rfl, rfl, rfl⟩⟩

theorem SameBlock.sameBuf {s t : State} (h : SameBlock s t) : SameBuf s t :=
  State.readByte_congr h.buf h.inst.epoch

theorem State.report_sameValueStore (c : Cause) (r : Res) (d : Word) (s : State) : SameValueStore s (s.report c r d) := by
  constructor <;> rfl

/-- Storing a byte is a report on a state that differs in `BUF` alone (R201). -/
theorem State.stored_frame (a : Nat) (b : Byte) (s : State) :
    let t := (s.writeByte a b).report .cNone .ok 0
    t.seq = s.seq ∧ SameValueStore s t ∧ SamePacket s t ∧ SameTransport s t ∧ SameInstance s t :=
  ⟨rfl, by constructor <;> rfl, ⟨⟨rfl, rfl, rfl, rfl⟩, rfl, rfl, rfl, rfl⟩, ⟨rfl, rfl, rfl, rfl⟩, ⟨rfl, rfl, rfl⟩⟩

/-! ### The frames -/

/-- Settles O18: of the effects, those of the operations named are the only ones that touch a counter. -/
theorem onlySendAndConnectWriteTheCounters : Obligations.OnlySendAndConnectWriteTheCounters := by
  intro i s t hexec hconnect hsend
  refine State.seqRead_congr ?_
  cases effect_of_exec hexec with
  | connect => exact absurd rfl hconnect
  | send => exact absurd rfl (hsend _ _)
  | recv =>
    obtain ⟨hseq, -⟩ := s.recv_frame
    exact hseq
  | stored => rfl
  | parsed _ hparsed => exact hparsed.sameBlock.seq
  | reported => rfl

/-- The ports present no row of the two packet maps: what parses the held packet is `PARSE` itself (R88). -/
theorem parse_of_decodeHost {c : HostCmd} {i : Instr} (hdec : decodeHost c = .ok i) (hi : parsesHeldPacket i = true) :
    i = .parse := by
  unfold decodeHost at hdec
  split at hdec
  case h_4 => exact (Except.ok.inj hdec).symm
  case h_13 => cases hdec
  all_goals
    cases hdec
    exact Bool.noConfusion hi

/-- Settles O19: of the effects, that of a parsed packet is the only one that touches a slot. -/
theorem onlyParseWritesTheValueStore : Obligations.OnlyParseWritesTheValueStore := by
  intro c i s t hdec hparse hexec
  cases effect_of_exec hexec with
  | connect => exact s.connect_sameValueStore
  | send => exact s.send_sameValueStore _ _
  | recv =>
    obtain ⟨-, hstore, -⟩ := s.recv_frame
    exact hstore
  | stored =>
    obtain ⟨-, hstore, -⟩ := s.stored_frame _ _
    exact hstore
  | parsed hi => exact absurd (parse_of_decodeHost hdec hi) hparse
  | reported => exact s.report_sameValueStore _ _ _

/-- Settles O20. -/
theorem onlyRecvAndStbWriteTheBuffer : Obligations.OnlyRecvAndStbWriteTheBuffer := by
  intro i s t hexec hrecv hstb
  cases effect_of_exec hexec with
  | connect => exact s.connect_sameBuf
  | send => exact s.send_sameBuf _ _
  | recv => exact absurd rfl hrecv
  | stored => exact absurd rfl (hstb _ _)
  | parsed _ hparsed => exact hparsed.sameBlock.sameBuf
  | reported => exact (s.report_sameBlock _ _ _).sameBuf

/-- Settles O21: `SEND` drops the packet and keeps the header registers, and the effects not named keep both. -/
theorem heldPacketRegistersMoveInThreeOperationsOnly : Obligations.HeldPacketRegistersMoveInThreeOperationsOnly := by
  intro i s t hexec hconnect hrecv
  have keeps (h : SamePacket s t) : SameHeader s t ∧ ((∀ ch n, i ≠ .send ch n) → SamePacket s t) :=
    ⟨h.toSameHeader, fun _ => h⟩
  cases effect_of_exec hexec with
  | connect => exact absurd rfl hconnect
  | send => exact ⟨s.send_sameHeader _ _, fun hsend => absurd rfl (hsend _ _)⟩
  | recv => exact absurd rfl hrecv
  | stored =>
    obtain ⟨-, -, hpacket, -⟩ := s.stored_frame _ _
    exact keeps hpacket
  | parsed _ hparsed => exact keeps hparsed.sameBlock.packet
  | reported => exact keeps (s.report_sameBlock _ _ _).packet

/-- Settles O22: `SEND` and `RECV` take from the transport what they ask for, and every other effect keeps all of it. -/
theorem onlySendAndRecvAskTheTransport : Obligations.OnlySendAndRecvAskTheTransport := by
  intro i s t hexec
  have keeps (hinst : SameInstance s t) (h : SameTransport s t) :
      SameInstance s t ∧ (i ≠ .recv → t.rdStream = s.rdStream) ∧
        ((∀ ch n, i ≠ .send ch n) → t.wrAnswers = s.wrAnswers) ∧
        (i ≠ .recv → (∀ ch n, i ≠ .send ch n) → SameTransport s t) :=
    ⟨hinst, fun _ => h.rdStream, fun _ => h.wrAnswers, fun _ _ => h⟩
  cases effect_of_exec hexec with
  | connect => exact keeps s.connect_sameInstance s.connect_sameTransport
  | send =>
    obtain ⟨hread, -⟩ := s.send_answers _ _
    exact ⟨s.send_sameInstance _ _, fun _ => hread, fun hsend => absurd rfl (hsend _ _),
      fun _ hsend => absurd rfl (hsend _ _)⟩
  | recv =>
    obtain ⟨-, -, -, hinst, hwrite⟩ := s.recv_frame
    exact ⟨hinst, fun hrecv => absurd rfl hrecv, fun _ => hwrite, fun hrecv => absurd rfl hrecv⟩
  | stored =>
    obtain ⟨-, -, -, htransport, hinst⟩ := s.stored_frame _ _
    exact keeps hinst htransport
  | parsed _ hparsed => exact keeps hparsed.sameBlock.inst hparsed.sameBlock.transport
  | reported => exact keeps (s.report_sameBlock _ _ _).inst (s.report_sameBlock _ _ _).transport

end Sys2Proof.Machine
end

section
/-! PROOFS. The step (00_scope.md R9, R13, 70_reset_and_hazards.md R252, R262): one equation for each thing a step takes,
then O4 to O8. -/

namespace Sys2Proof.Machine

open Sys2Proof

/-! ### What a step takes -/

theorem step_of_legal {s : State} (hcfg : s.cfg.WellFormed) : step s = runInput s :=
  if_pos ((Config.check_iff s.cfg).mpr hcfg)

theorem step_of_illegal {s : State} (hcfg : ¬ s.cfg.WellFormed) : step s = .refused .badConfig :=
  if_neg (fun hcheck => hcfg ((Config.check_iff s.cfg).mp hcheck))

theorem legal_of_step_next {s t : State} (h : step s = .next t) : s.cfg.WellFormed := by
  by_contra hcfg
  rw [step_of_illegal hcfg] at h
  cases h

theorem RxFsm.inProgress_iff (f : RxFsm) : f.inProgress = true ↔ f = .awaitingHeader ∨ f = .awaitingPayload := by
  cases f <;> decide

theorem RxFsm.not_inProgress {f : RxFsm} (hheader : f ≠ .awaitingHeader) (hpayload : f ≠ .awaitingPayload) :
    f.inProgress = false :=
  Bool.eq_false_iff.mpr fun h => ((RxFsm.inProgress_iff f).mp h).elim hheader hpayload

theorem runInput_nothing {s : State} (h : s.inputs = []) : runInput s = .next s := by
  rw [runInput, h]

theorem runInput_powerOn {s : State} {rest : List HostInput} (h : s.inputs = .powerOn :: rest) :
    runInput s = .next (s.powerOn rest) := by
  rw [runInput, h]

theorem runInput_inProgress {s : State} {c : HostCmd} {rest : List HostInput} (h : s.inputs = .op c :: rest)
    (hfsm : s.rxfsm.inProgress = true) : runInput s = .fault .operationInProgress := by
  rw [runInput, h]
  exact if_pos hfsm

theorem runInput_op {s : State} {c : HostCmd} {rest : List HostInput} (h : s.inputs = .op c :: rest)
    (hfsm : s.rxfsm.inProgress = false) : runInput s = runCommand c { s with inputs := rest } := by
  rw [runInput, h]
  exact if_neg (ne_true_of_eq_false hfsm)

theorem runCommand_ok {c : HostCmd} {i : Instr} (h : decodeHost c = .ok i) (s : State) : runCommand c s = exec i s := by
  rw [runCommand, h]

theorem runCommand_error {c : HostCmd} {e : Reject} (h : decodeHost c = .error e) (s : State) :
    runCommand c s = .next s.refuse := by
  rw [runCommand, h]
  rfl

/-- A command ends as the instruction it names does, or is refused (R88, R205). -/
theorem runCommand_cases (c : HostCmd) (s : State) :
    ∃ t, runCommand c s = .next t ∧ ((∃ i, s.Effect i t) ∨ t = s.refuse) := by
  cases hdec : decodeHost c with
  | ok i =>
    obtain ⟨t, hexec, heffect⟩ := exec_effect i s
    exact ⟨t, (runCommand_ok hdec s).trans hexec, .inl ⟨i, heffect⟩⟩
  | error e => exact ⟨s.refuse, runCommand_error hdec s, .inr rfl⟩

/-- The codes from `0x0C` on name no operation (R88, R205). -/
theorem decodeHost_unknown {c : HostCmd} (h : 0x0C ≤ c.op.toNat) : decodeHost c = .error (.unknownOp c.op) := by
  obtain ⟨k, hk⟩ := Nat.exists_eq_add_of_le' h
  rw [decodeHost, hk]
  rfl

/-- Everything a step can do with legal parameters: wait, reset, take one command, or stop inside an operation. -/
theorem step_cases {s : State} (hcfg : s.cfg.WellFormed) :
    step s = .next s ∨ (∃ rest, step s = .next (s.powerOn rest)) ∨
    (∃ rest t, step s = .next t ∧
      ((∃ i, State.Effect { s with inputs := rest } i t) ∨ t = State.refuse { s with inputs := rest })) ∨
    (step s = .fault .operationInProgress ∧ s.rxfsm.inProgress = true ∧ ∃ c rest, s.inputs = .op c :: rest) := by
  rw [step_of_legal hcfg]
  rcases hin : s.inputs with _ | ⟨_ | c, rest⟩
  · exact .inl (runInput_nothing hin)
  · exact .inr (.inl ⟨rest, runInput_powerOn hin⟩)
  · cases hfsm : s.rxfsm.inProgress with
    | true => exact .inr (.inr (.inr ⟨runInput_inProgress hin hfsm, rfl, c, rest, rfl⟩))
    | false =>
      obtain ⟨t, hrun, hend⟩ := runCommand_cases c { s with inputs := rest }
      exact .inr (.inr (.inl ⟨rest, t, (runInput_op hin hfsm).trans hrun, hend⟩))

/-- A legal step answers a next state, or stops inside an operation. -/
theorem step_ends {s : State} (hcfg : s.cfg.WellFormed) :
    (∃ t, step s = .next t) ∨
    (step s = .fault .operationInProgress ∧ s.rxfsm.inProgress = true ∧ ∃ c rest, s.inputs = .op c :: rest) := by
  rcases step_cases hcfg with hstep | ⟨rest, hstep⟩ | ⟨rest, t, hstep, -⟩ | hstop
  · exact .inl ⟨_, hstep⟩
  · exact .inl ⟨_, hstep⟩
  · exact .inl ⟨_, hstep⟩
  · exact .inr hstop

/-! ### The obligations -/

/-- Settles O4. -/
theorem stepRunsTheDecodedOperation : Obligations.StepRunsTheDecodedOperation := by
  intro s c rest i hcfg hin hheader hpayload hdec
  rw [step_of_legal hcfg, runInput_op hin (RxFsm.not_inProgress hheader hpayload), runCommand_ok hdec]

/-- Settles O5: the decoder rejects the code, and the refusal is the whole effect. -/
theorem stepRefusesAnUnknownOperationCode : Obligations.StepRefusesAnUnknownOperationCode := by
  intro s c rest hcfg hin hheader hpayload hop
  rw [step_of_legal hcfg, runInput_op hin (RxFsm.not_inProgress hheader hpayload),
    runCommand_error (decodeHost_unknown hop), State.refuse_eq]
  rfl

/-- Settles O6. -/
theorem stepWaitsWhenNothingIsPresented : Obligations.StepWaitsWhenNothingIsPresented := by
  intro s hcfg hin
  rw [step_of_legal hcfg, runInput_nothing hin]

/-- Settles O8: the stop is the one end of a step that is no next state. -/
theorem stepStopsExactlyInsideAnotherOperation : Obligations.StepStopsExactlyInsideAnotherOperation := by
  intro s hcfg
  rw [← RxFsm.inProgress_iff]
  refine ⟨fun hfault => ?inside, fun ⟨hfsm, c, rest, hin⟩ => ?stops⟩
  case stops => rw [step_of_legal hcfg, runInput_inProgress hin hfsm]
  case inside =>
    rcases step_ends hcfg with ⟨t, hstep⟩ | ⟨-, hfsm, hin⟩
    · cases hfault.symm.trans hstep
    · exact ⟨hfsm, hin⟩

/-- Settles O7: neither end of a legal step is a refusal. -/
theorem stepIsRefusedExactlyForABrokenConfiguration : Obligations.StepIsRefusedExactlyForABrokenConfiguration := by
  intro s
  refine ⟨fun ⟨r, hrefused⟩ hcfg => ?legal, fun hcfg => ⟨_, step_of_illegal hcfg⟩⟩
  case legal =>
    rcases step_ends hcfg with ⟨t, hstep⟩ | ⟨hstep, -⟩
    · cases hrefused.symm.trans hstep
    · cases hrefused.symm.trans hstep

end Sys2Proof.Machine
end

section
/-! PROOFS. Reset and the invariant of an operation boundary (10_state.md R44, R45, 70_reset_and_hazards.md R250, R251):
what power-on leaves, what each effect keeps, then O12, O14, O15, O17 and O16. -/

namespace Sys2Proof.Machine

open Sys2Proof

/-! ### What power-on leaves -/

theorem State.afterPowerOn_resetRegisters (cfg : Config) (epoch : Nat) (inputs : List HostInput)
    (rdStream : List StreamItem) (wrAnswers : List WrAnswer) (draws : Nat) (trace : List TraceEntry) :
    (State.afterPowerOn cfg epoch inputs rdStream wrAnswers draws trace).ResetRegisters where
  counters := State.seqRead_of_cleared rfl
  header := rfl
  chan := rfl
  rxseq := rfl
  rxlen := rfl
  rxcnt := rfl
  valid := rfl
  trunc := rfl
  fsm := rfl
  cause := rfl
  lastCls := rfl
  lastRid := rfl

theorem State.powerOn_resetRegisters (rest : List HostInput) (s : State) : (s.powerOn rest).ResetRegisters :=
  State.afterPowerOn_resetRegisters ..

theorem step_powerOn {s : State} {rest : List HostInput} (hcfg : s.cfg.WellFormed) (h : s.inputs = .powerOn :: rest) :
    step s = .next (s.powerOn rest) := by
  rw [step_of_legal hcfg, runInput_powerOn h]

/-- Settles O12: all three events leave the register table, the first two by `State.afterPowerOn`. -/
theorem bothResetEventsLeaveTheRegisterTable : Obligations.BothResetEventsLeaveTheRegisterTable := by
  refine ⟨State.afterPowerOn_resetRegisters .., fun s t rest hin hstep => ?powerOn, fun s t hexec => ?connect⟩
  case powerOn =>
    cases hstep.symm.trans (step_powerOn (legal_of_step_next hstep) hin)
    exact s.powerOn_resetRegisters rest
  case connect =>
    cases hexec.symm.trans (exec_connect s)
    exact s.connect_resetRegisters

/-- Settles O14. -/
theorem powerOnKeepsThePendingTransportBytes : Obligations.PowerOnKeepsThePendingTransportBytes := by
  intro s rest hcfg hin
  exact ⟨s.powerOn rest, step_powerOn hcfg hin, ⟨rfl, rfl, rfl, rfl⟩, rfl, rfl, rfl, fun _ => rfl, rfl, rfl, rfl, rfl,
    rfl, rfl, rfl, rfl, rfl, rfl, rfl, rfl, rfl, rfl⟩

/-! ### States with the invariant -/

/-- With no packet held the flags are down, and the receive sequencer is in none of the states of a `RECV` (R27, R44). -/
theorem State.Inv.of_nothingHeld {s : State} (hcfg : s.cfg.WellFormed) (hbuf : s.BufInv) (hvalid : s.rxvalid = false)
    (htrunc : s.trunc = false) (hcnt : s.rxcnt = 0) (hfsm : s.rxfsm = .idle ∨ s.rxfsm = .timedOut) : s.Inv where
  config := hcfg
  packet :=
    { valid_iff_complete := by rcases hfsm with hfsm | hfsm <;> simp [hvalid, hfsm]
      count := fun h => Bool.noConfusion (hvalid.symm.trans h)
      truncated := fun h => Bool.noConfusion (hvalid.symm.trans h)
      channel := fun h => Bool.noConfusion (hvalid.symm.trans h)
      sequence := fun h => Bool.noConfusion (hvalid.symm.trans h)
      length := fun h => Bool.noConfusion (hvalid.symm.trans h)
      nothing_held := fun _ => ⟨hcnt, htrunc⟩ }
  buffer := hbuf
  boundary := by rcases hfsm with hfsm | hfsm <;> simp [hfsm]

theorem State.afterPowerOn_inv {cfg : Config} (hcfg : cfg.WellFormed) (epoch : Nat) (inputs : List HostInput)
    (rdStream : List StreamItem) (wrAnswers : List WrAnswer) (draws : Nat) (trace : List TraceEntry) :
    (State.afterPowerOn cfg epoch inputs rdStream wrAnswers draws trace).Inv :=
  .of_nothingHeld hcfg ⟨List.Pairwise.nil, fun _ h => nomatch h⟩ rfl rfl rfl (.inl rfl)

/-- Settles O15. -/
theorem invariantHoldsAfterReset : Obligations.InvariantHoldsAfterReset :=
  State.afterPowerOn_inv ((Config.check_iff Config.suggested).mp (by decide)) ..

/-! ### What keeps the invariant -/

theorem State.BufInv.congr {s t : State} (h : s.BufInv) (hbuf : t.buf = s.buf) (hcfg : t.cfg = s.cfg) : t.BufInv where
  canonical := hbuf ▸ h.canonical
  inRange := by rw [hbuf, hcfg]; exact h.inRange

/-- The invariant speaks of the parameters, the registers of the held packet and `BUF` alone. -/
theorem State.Inv.congr {s t : State} (h : s.Inv) (hcfg : t.cfg = s.cfg) (hpacket : SamePacket s t) (hbuf : t.BufInv) :
    t.Inv := by
  obtain ⟨hconfig, hheld, -, hboundary⟩ := h
  obtain ⟨⟨hhdr, hchan, hseq, hlen⟩, hcnt, hfsm, hvalid, htrunc⟩ := hpacket
  obtain ⟨hcomplete, hcount, htruncated, hchannel, hsequence, hlength, hnothing⟩ := hheld
  constructor
  case config => rwa [hcfg]
  case packet =>
    constructor <;> rw [hvalid]
    case valid_iff_complete => rwa [hfsm]
    case count => rwa [hcnt, hlen, hcfg]
    case truncated => rwa [htrunc, hlen, hcfg]
    case channel => rwa [hchan, hhdr]
    case sequence => rwa [hseq, hhdr]
    case length => rwa [hlen, hhdr]
    case nothing_held => rwa [hcnt, htrunc]
  case buffer => exact hbuf
  case boundary => rwa [hfsm]

theorem State.Inv.of_sameBlock {s t : State} (h : s.Inv) (hsame : SameBlock s t) : t.Inv :=
  h.congr hsame.inst.cfg hsame.packet (h.buffer.congr hsame.buf hsame.inst.cfg)

theorem State.BufInv.writeByte {s : State} (h : s.BufInv) {a : Nat} (ha : a < s.cfg.maxPayload) (b : Byte) :
    (s.writeByte a b).BufInv where
  canonical := Memory.wf_set h.canonical a b
  inRange := fun c hc => by
    rcases Memory.mem_set hc with rfl | hmem
    · exact ha
    · exact h.inRange c hmem

theorem State.Inv.stored {s : State} (h : s.Inv) {a : Nat} (ha : a < s.cfg.maxPayload) (b : Byte) :
    ((s.writeByte a b).report .cNone .ok 0).Inv := by
  obtain ⟨-, -, hpacket, -, hinst⟩ := s.stored_frame a b
  exact h.congr hinst.cfg hpacket ((h.buffer.writeByte ha b).congr rfl rfl)

theorem State.Inv.connect {s : State} (h : s.Inv) : s.connect.Inv :=
  .of_nothingHeld h.config (h.buffer.congr rfl rfl) rfl rfl rfl (.inl rfl)

theorem State.Inv.send {s : State} (h : s.Inv) (ch : Byte) (n : Nat) : (s.send ch n).Inv := by
  obtain ⟨hvalid, htrunc, hcnt, hfsm⟩ := s.send_dropsPacket ch n
  have hcfg := (s.send_sameInstance ch n).cfg
  refine .of_nothingHeld (by rw [hcfg]; exact h.config) (h.buffer.congr ?_ hcfg) hvalid htrunc hcnt (.inl hfsm)
  rw [State.send_eq]

/-- A declared length has fifteen bits (R71), so `RXLEN` holds the payload length exactly (R25). -/
theorem rxlen_toNat {hd : Header} {n : Nat} (h : hd.declaredLength = n + 4) : (BitVec.ofNat 15 n).toNat = n := by
  have hlow := hd.b0.isLt
  rw [Header.declaredLength_eq] at h
  exact Nat.mod_eq_of_lt (by omega)

/-- A `RECV` that returns `OK` describes the packet it holds, and any other holds none (R44). -/
theorem State.Inv.recv {s : State} (h : s.Inv) : s.recv.Inv := by
  obtain ⟨hd, chan, sq, len, cnt, fsm, v, tr, c, buf, r, rd, d, es, hrecv, hwf, hrange, -, hend⟩ := s.recv_cases
  have hbuf : s.recv.BufInv := by
    rw [hrecv]
    exact ⟨hwf h.buffer.canonical, hrange h.buffer.inRange⟩
  rw [hrecv] at hbuf ⊢
  rcases hend with ⟨rfl, rfl, rfl, hfsm⟩ | ⟨rfl, -, rfl, -, rfl, rfl, n, hlen, rfl, rfl, rfl⟩
  · exact .of_nothingHeld h.config hbuf rfl rfl rfl (hfsm.imp (fun ⟨_, hidle, _⟩ => hidle) (fun ⟨_, htimed, _⟩ => htimed))
  · have hn := rxlen_toNat hlen
    have hmax := h.config.maxPayload
    constructor
    case config => exact h.config
    case packet =>
      exact
        { valid_iff_complete := by simp
          count := fun _ => by simp only [hn, storedCount_toNat h.config, hmax]
          truncated := fun _ => by simp only [hn, truncFlag, decide_eq_true_eq]
          channel := fun _ => rfl
          sequence := fun _ => rfl
          length := fun _ => by rw [hn]; exact hlen.symm
          nothing_held := fun hnone => Bool.noConfusion hnone }
    case buffer => exact hbuf
    case boundary => simp

/-- Every effect of an instruction keeps the invariant. -/
theorem State.Inv.effect {i : Instr} {s t : State} (h : s.Inv) (heffect : s.Effect i t) : t.Inv := by
  cases heffect with
  | connect => exact h.connect
  | send => exact h.send _ _
  | recv => exact h.recv
  | stored haddr => exact h.stored haddr _
  | parsed _ hparsed => exact h.of_sameBlock hparsed.sameBlock
  | reported => exact h.of_sameBlock (s.report_sameBlock _ _ _)

theorem State.Inv.taken {s : State} (h : s.Inv) (rest : List HostInput) : State.Inv { s with inputs := rest } :=
  h.congr rfl ⟨⟨rfl, rfl, rfl, rfl⟩, rfl, rfl, rfl, rfl⟩ (h.buffer.congr rfl rfl)

theorem State.Inv.not_inProgress {s : State} (h : s.Inv) : s.rxfsm.inProgress = false :=
  RxFsm.not_inProgress h.boundary.1 h.boundary.2

/-! ### The obligations on a step -/

/-- Settles O17: the stop inside an operation is excluded at a boundary. -/
theorem noStepStopsUnderTheInvariant : Obligations.NoStepStopsUnderTheInvariant := by
  intro s h
  rcases step_ends h.config with hnext | ⟨-, hfsm, -⟩
  · exact hnext
  · exact Bool.noConfusion (h.not_inProgress.symm.trans hfsm)

/-- Settles O16: a step waits, resets, or ends as an instruction or a refusal does, and each keeps the invariant. -/
theorem everyStepKeepsTheInvariant : Obligations.EveryStepKeepsTheInvariant := by
  intro s t h hstep
  rcases step_cases h.config with hwait | ⟨rest, hpowerOn⟩ | ⟨rest, u, hrun, hend⟩ | ⟨hstop, -⟩
  · cases hstep.symm.trans hwait
    exact h
  · cases hstep.symm.trans hpowerOn
    exact State.afterPowerOn_inv h.config ..
  · cases hstep.symm.trans hrun
    rcases hend with ⟨i, heffect⟩ | rfl
    · exact (h.taken rest).effect heffect
    · exact (h.taken rest).of_sameBlock (State.report_sameBlock ..)
  · cases hstep.symm.trans hstop

end Sys2Proof.Machine
end

section
/-! PROOFS. `RECV` (41_framer_rx.md), the rest: a fault on a read, and what a `RECV` does not depend on, then O30, O32,
O33, O34 and O36. -/

namespace Sys2Proof.Machine

open Sys2Proof

/-! ### A read that faults -/

/-- Settles O30: the closed form of the `RECV`, and the frame of every `RECV`. -/
theorem recvWithAHeaderFaultTimesOut : Obligations.RecvWithAHeaderFaultTimesOut := by
  intro s hfault
  have hrecv := State.recv_header_fault hfault
  obtain ⟨hseq, hstore, hverdict, hinst, hwr⟩ := s.recv_frame
  rw [hrecv] at hseq hstore hverdict hinst hwr
  exact ⟨_, congrArg Host.Outcome.next hrecv, rfl, rfl, rfl, rfl, rfl, rfl, rfl, ⟨rfl, rfl, rfl, rfl⟩,
    State.readByte_congr rfl rfl, State.seqRead_congr hseq, rfl, rfl, rfl, hstore, hverdict, hinst, hwr⟩

/-- A stream that begins with four bytes answers the header read with them (R110). -/
theorem takeBytes_header {xs : List StreamItem} {h0 h1 h2 h3 : Byte} {bs : List Byte} {rest : List StreamItem}
    (h : xs = ([h0, h1, h2, h3] ++ bs).map .byte ++ rest) (d : Nat) :
    takeBytes 4 xs d = (some [h0, h1, h2, h3], bs.map .byte ++ rest, d) := by
  rw [h]
  exact takeBytes_prefix ([h0, h1, h2, h3] ++ bs) 4 rest d (by simp)

/-- Everything a `RECV` does whose stream faults after `got`, inside the payload (R115, R116, R120). -/
theorem State.recv_payload_fault {s : State} {h0 h1 h2 h3 : Byte} {n : Nat} {got : List Byte} {rest : List StreamItem}
    (htMax : 1 ≤ s.cfg.tMax) (hstream : s.rdStream = ([h0, h1, h2, h3] ++ got).map .byte ++ .fault :: rest)
    (hlen : (Header.mk h0 h1 h2 h3).declaredLength = n + 4) (hgot : got.length < n) :
    s.recv =
      { s.accepted ⟨h0, h1, h2, h3⟩ n rest s.draws with
        buf := Memory.store s.cfg.maxPayload 0 (got.take (got.length / s.cfg.tMax * s.cfg.tMax)) s.buf
        trace := s.trace ++ [.read 4 (.bytes [h0, h1, h2, h3])] ++
          (payloadReads s.cfg.tMax (got.take (got.length / s.cfg.tMax * s.cfg.tMax)) ++
            [.read (min (n - got.length / s.cfg.tMax * s.cfg.tMax) s.cfg.tMax) .fault])
        rxfsm := .timedOut, cause := .tfaultPay, res := .fault, rdata := 0 } := by
  have hloop := State.payloadLoop_fault (n := n) (fuel := n) (i := 0)
    (s := s.accepted ⟨h0, h1, h2, h3⟩ n (got.map .byte ++ .fault :: rest) s.draws)
    htMax rfl (by omega) (by omega)
  rw [State.recv_payload (takeBytes_header hstream s.draws) hlen, hloop]
  rfl

/-- Settles O32, from the closed form of the `RECV`: its registers are read off, and `BUF` byte by byte. -/
theorem recvWithAPayloadFaultKeepsTheChunksBefore : Obligations.RecvWithAPayloadFaultKeepsTheChunksBefore := by
  intro s h0 h1 h2 h3 n got rest hcfg hstream hlen hgot
  have htMax := hcfg.tMax
  have hdeclared := (Header.declaredLength_eq ⟨h0, h1, h2, h3⟩).trans hlen
  have hrecv := State.recv_payload_fault (by omega) hstream hdeclared hgot
  obtain ⟨hseq, hstore, hverdict, hinst, hwr⟩ := s.recv_frame
  have hchunks := Nat.div_mul_le_self got.length s.cfg.tMax
  generalize hk : got.length / s.cfg.tMax * s.cfg.tMax = k at *
  have hkept : (got.take k).length = k := List.length_take_of_le hchunks
  have hbuf : s.recv.buf = Memory.store 270 0 (got.take k) s.buf := by rw [hrecv, ← hcfg.maxPayload]
  rw [hrecv] at hseq hstore hverdict hinst hwr hbuf
  refine ⟨_, congrArg Host.Outcome.next hrecv, rfl, rfl, rfl, rfl, rfl, rfl, rfl, rfl, rfl, rfl, rxlen_toNat hdeclared,
    fun a ha => ?stored, fun a ha => State.readByte_beyond_stored hbuf rfl (by rw [hkept]; exact ha), ?trace, rfl, rfl,
    State.seqRead_congr hseq, hstore, hverdict, hinst, hwr⟩
  case stored =>
    rw [← State.readByte_of_stored hbuf (by rw [hkept]; exact ha), List.getElem?_take_of_lt (by omega)]
  case trace => rw [List.append_assoc, List.singleton_append]

/-! ### The per-transaction limit -/

/-- `s` with another per-transaction limit (R8). -/
def State.setTMax (k : Nat) (s : State) : State := { s with cfg := { s.cfg with tMax := k } }

/-- `s` without what R116 lets the limit show in: the parameters, in which it is, and the requests. -/
def State.unchunked (cfg : Config) (s : State) : State := { s with cfg := cfg, trace := [] }

/-- With the header and the declared payload at hand, a `RECV` ends the same under any two limits (R116). -/
theorem State.recv_unchunked {s : State} {h0 h1 h2 h3 : Byte} {payload : List Byte} {rest : List StreamItem} {k1 k2 : Nat}
    (hk1 : 1 ≤ k1) (hk2 : 1 ≤ k2) (hstream : s.rdStream = ([h0, h1, h2, h3] ++ payload).map .byte ++ rest)
    (hlen : (Header.mk h0 h1 h2 h3).declaredLength ≤ payload.length + 4) :
    (s.setTMax k1).recv.unchunked s.cfg = (s.setTMax k2).recv.unchunked s.cfg := by
  have htake1 : takeBytes 4 (s.setTMax k1).rdStream (s.setTMax k1).draws = _ := takeBytes_header hstream s.draws
  have htake2 : takeBytes 4 (s.setTMax k2).rdStream (s.setTMax k2).draws = _ := takeBytes_header hstream s.draws
  by_cases hzero : (Header.mk h0 h1 h2 h3).declaredLength = 0
  · rw [State.recv_zero htake1 hzero, State.recv_zero htake2 hzero]
    rfl
  by_cases hshort : (Header.mk h0 h1 h2 h3).declaredLength < 4
  · rw [State.recv_short htake1 hzero hshort, State.recv_short htake2 hzero hshort]
    rfl
  · obtain ⟨n, hn⟩ : ∃ n, (Header.mk h0 h1 h2 h3).declaredLength = n + 4 :=
      ⟨(Header.mk h0 h1 h2 h3).declaredLength - 4, by omega⟩
    have hwhole : (payload.take n).length = n := List.length_take_of_le (by omega)
    have hsplit : s.rdStream =
        ([h0, h1, h2, h3] ++ payload.take n).map .byte ++ ((payload.drop n).map .byte ++ rest) := by
      rw [hstream, ← List.append_assoc, ← List.map_append, List.append_assoc, List.take_append_drop]
    rw [State.recv_whole (s := s.setTMax k1) hk1 hsplit (hn.trans (by rw [hwhole])),
      State.recv_whole (s := s.setTMax k2) hk2 hsplit (hn.trans (by rw [hwhole]))]
    rfl

/-- Settles O33. -/
theorem chunkingLeavesNoTraceInTheState : Obligations.ChunkingLeavesNoTraceInTheState := by
  intro s h0 h1 h2 h3 payload rest k1 k2 t1 t2 hk1 hk2 hstream hlen hexec1 hexec2
  have hsame : (s.setTMax k1).recv.unchunked s.cfg = (s.setTMax k2).recv.unchunked s.cfg :=
    State.recv_unchunked (by omega) (by omega) hstream ((Header.declaredLength_eq _).trans_le hlen)
  have ht1 : (s.setTMax k1).recv = t1 := Host.Outcome.next.inj hexec1
  have ht2 : (s.setTMax k2).recv = t2 := Host.Outcome.next.inj hexec2
  rw [ht1, ht2] at hsame
  exact hsame

/-! ### The continuation flag -/

/-- What `RECV` does with an accepted header reads neither the latched bytes nor the trace before it. -/
theorem State.recvPayload_unread (n : Nat) (s : State) (hd : Header) (tr : List TraceEntry) :
    ∃ es, (s.recvPayload n).trace = s.trace ++ es ∧ (s.recvPayload n).rxhdr = s.rxhdr ∧
      ({ s with rxhdr := hd, trace := tr } : State).recvPayload n =
        { s.recvPayload n with rxhdr := hd, trace := tr ++ es } := by
  obtain ⟨_, _, _, _, hframe, -⟩ := State.payloadLoop_frame n n 0 { s with rxfsm := .awaitingPayload }
  obtain ⟨es, htrace, hloop⟩ :=
    State.payloadLoop_unread n n 0 { s with rxfsm := .awaitingPayload } hd tr s.seq
  have hhdr : (State.payloadLoop n n 0 { s with rxfsm := .awaitingPayload }).2.rxhdr = s.rxhdr := by rw [hframe]
  have hseq : (State.payloadLoop n n 0 { s with rxfsm := .awaitingPayload }).2.seq = s.seq := by rw [hframe]
  refine ⟨es, ?_⟩
  simp only [State.recvPayload, hloop]
  rcases hp : State.payloadLoop n n 0 { s with rxfsm := .awaitingPayload } with ⟨ok, t⟩
  rw [hp] at htrace hhdr hseq
  dsimp only at htrace hhdr hseq
  cases ok <;> exact ⟨htrace, hhdr, by rw [← hseq]; rfl⟩

/-- The judgement of a header rests on its declared length and its last two bytes alone (R112). -/
theorem State.recvHeader_unread {h h' : Header} (hlen : h'.declaredLength = h.declaredLength) (hchan : h'.b2 = h.b2)
    (hseq : h'.b3 = h.b3) (s : State) (tr : List TraceEntry) :
    ∃ es, (s.recvHeader h).trace = s.trace ++ es ∧ (s.recvHeader h).rxhdr = h ∧
      ({ s with trace := tr } : State).recvHeader h' = { s.recvHeader h with rxhdr := h', trace := tr ++ es } := by
  unfold State.recvHeader
  rw [hlen, hchan, hseq]
  split
  · exact ⟨[], (List.append_nil _).symm, rfl, by rw [List.append_nil]; rfl⟩
  · split
    · exact ⟨[], (List.append_nil _).symm, rfl, by rw [List.append_nil]; rfl⟩
    · exact State.recvPayload_unread (h.declaredLength - 4)
        { s with rxhdr := h, rxchan := h.b2, rxseq := h.b3, rxlen := BitVec.ofNat 15 (h.declaredLength - 4) } h' tr

/-- `s` with the header's four bytes read and not yet latched (R110). -/
def State.headerRead (hd : Header) (rest : List StreamItem) (s : State) : State :=
  { s.latched hd rest s.draws with rxhdr := s.rxhdr }

theorem State.recv_headerRead (s : State) (h0 h1 h2 h3 : Byte) (rest : List StreamItem) :
    ({ s with rdStream := ([h0, h1, h2, h3]).map .byte ++ rest } : State).recv =
      (s.headerRead ⟨h0, h1, h2, h3⟩ rest).recvHeader ⟨h0, h1, h2, h3⟩ :=
  State.recv_header (takeBytes_bytes [h0, h1, h2, h3] rest s.draws)

/-- Settles O34: the flag is no part of the declared length, so the header is judged the same. -/
theorem theContinuationFlagIsIgnored : Obligations.TheContinuationFlagIsIgnored := by
  intro s h0 h1 h2 h3 rest t1 t2 hexec1 hexec2
  obtain ⟨es, htrace, hhdr, hunread⟩ := State.recvHeader_unread (Header.declaredLength_flag h0 h1 h2 h3) rfl rfl
    (s.headerRead ⟨h0, h1, h2, h3⟩ rest) (s.trace ++ [.read 4 (.bytes [h0, h1 ^^^ 0x80, h2, h3])])
  have ht1 := (s.recv_headerRead h0 h1 h2 h3 rest).symm.trans (Host.Outcome.next.inj hexec1)
  have ht2 := (s.recv_headerRead h0 (h1 ^^^ 0x80) h2 h3 rest).symm.trans (Host.Outcome.next.inj hexec2)
  rw [ht1] at htrace hhdr hunread
  obtain rfl := ht2.symm.trans hunread
  refine ⟨hhdr, rfl, ⟨es, htrace.trans ?_, ?_⟩, rfl⟩
  · exact List.append_assoc ..
  · exact List.append_assoc ..

/-! ### What every `RECV` leaves alone -/

/-- Settles O36: the frame of `RECV`, and the ways it can end. -/
theorem recvFrame : Obligations.RecvFrame := by
  intro s t hexec
  obtain rfl : s.recv = t := Host.Outcome.next.inj hexec
  obtain ⟨hseq, hstore, hverdict, hinst, hwr⟩ := s.recv_frame
  obtain ⟨hunrefused, -⟩ := s.unrefused_recv
  obtain ⟨_, _, _, _, _, _, _, _, _, buf, _, _, _, _, hrecv, -, -, hbeyond, hend⟩ := s.recv_cases
  have hbuf : s.recv.buf = buf := by rw [hrecv]
  refine ⟨State.seqRead_congr hseq, hstore, hverdict, hinst, hwr, fun a ha => ?beyond, hunrefused, ?held⟩
  case beyond => rw [State.readByte, State.readByte, hbuf, hbeyond a ha, hinst.epoch]
  case held =>
    rw [hrecv]
    rcases hend with ⟨rfl, rfl, rfl, ⟨rfl, rfl, -⟩ | ⟨rfl, rfl, -⟩⟩ | ⟨rfl, rfl, rfl, -⟩ <;> simp

end Sys2Proof.Machine
end

section
/-! PROOFS. `PARSE` as a whole (42_demux.md R130, R145, R146): the end that the held packet decides, what each end writes,
then O10, O11, O39, O48, O41, O42 and O43. -/

namespace Sys2Proof.Machine

open Sys2Proof

/-! ### The class of the decode word -/

theorem State.decodePacketWord_eq {s : State} (hchan : s.rxchan = s.rxhdr.b2) :
    decodePacketWord s.cfg s.decodeWord s.rxcnt.toNat = decodePacket s.cfg s.rxchan s.firstByte := by
  rw [decodePacketWord, State.decodeWord, extract_header_channel, extract_header_first, hchan]
  rfl

/-- Settles O10: the decode word shows the demux the channel and the first byte. -/
theorem parseRunsTheClassOfTheDecodeWord : Obligations.ParseRunsTheClassOfTheDecodeWord := by
  intro s hvalid hchan
  rw [exec_parse_valid hvalid, State.decodePacketWord_eq hchan]

/-- Settles O11. -/
theorem baseTimestampPacketRunsItsReportType : Obligations.BaseTimestampPacketRunsItsReportType :=
  exec_pktRptBasets

/-! ### A packet with a known first byte -/

theorem State.route_eq_returning (cls : PktClass) (b : Byte) (s : State) : s.route cls b = s.returning cls b := by
  rw [State.returning, BitVec.ofNat_toNat]
  rfl

theorem exec_parse_firstByte {s : State} {ch b : Byte} {r : PktRow} (hvalid : s.rxvalid = true) (hchan : s.rxchan = ch)
    (hcnt : 1 ≤ s.rxcnt.toNat) (hbyte : s.readByte 0 = b) (hrow : decodePacket s.cfg ch (some b) = r) :
    exec .parse s = exec r.instr s := by
  rw [exec_parse_valid hvalid, State.firstByte_nonempty hcnt, hchan, hbyte, hrow]

/-- Settles O39: each class routes its identifier, and the demux gives each identifier its class. -/
theorem controlResponsesAreRouted : Obligations.ControlResponsesAreRouted := by
  intro s
  have hprodid : exec .pktCtlProdid s = .next (s.returning .prodid s.cfg.ridProductIdResponse) :=
    congrArg Host.Outcome.next (s.route_eq_returning _ _)
  have hcmdresp : exec .pktCtlCmdresp s = .next (s.returning .cmdresp s.cfg.ridCommandResponse) :=
    congrArg Host.Outcome.next (s.route_eq_returning _ _)
  have hfrsresp : exec .pktCtlFrsresp s = .next (s.returning .frsresp s.cfg.ridFrsReadResponse) :=
    congrArg Host.Outcome.next (s.route_eq_returning _ _)
  simp only [List.forall_mem_cons, List.not_mem_nil, false_imp_iff, implies_true, and_true]
  refine ⟨⟨hprodid, fun hcfg hvalid hchan hcnt hbyte => ?prodid⟩, ⟨hcmdresp, fun hcfg hvalid hchan hcnt hbyte => ?cmdresp⟩,
    ⟨hfrsresp, fun hcfg hvalid hchan hcnt hbyte => ?frsresp⟩⟩
  case prodid =>
    obtain ⟨hrow, -, -⟩ := decodePacket_control hcfg
    exact (exec_parse_firstByte hvalid hchan hcnt hbyte hrow).trans hprodid
  case cmdresp =>
    obtain ⟨-, hrow, -⟩ := decodePacket_control hcfg
    exact (exec_parse_firstByte hvalid hchan hcnt hbyte hrow).trans hcmdresp
  case frsresp =>
    obtain ⟨-, -, hrow⟩ := decodePacket_control hcfg
    exact (exec_parse_firstByte hvalid hchan hcnt hbyte hrow).trans hfrsresp

/-- What a three-component report takes from a packet that holds its three words (R77, R152). -/
theorem State.vecBytes_of_present {s : State} (h : 15 ≤ s.rxcnt.toNat) :
    s.vecBytes =
      ⟨s.readByte 10 ++ s.readByte 9, s.readByte 12 ++ s.readByte 11, s.readByte 14 ++ s.readByte 13,
       (s.readByte 7).extractLsb' 0 2, s.readByte 4 ++ s.readByte 3 ++ s.readByte 2 ++ s.readByte 1⟩ := by
  rw [State.vecBytes, State.presentWord, State.presentWord, State.presentWord, if_pos (by omega), if_pos (by omega),
    if_pos h]
  rfl

/-- Settles O48: the marker leads to the base-timestamp class, and the identifier, the first of the map, to its type. -/
theorem parseOfAnAccelerometerPacketFillsAcc : Obligations.ParseOfAnAccelerometerPacketFillsAcc := by
  intro s hvalid hchan hcnt hmarker hrid
  have hrow : decodeReport s.cfg s.cfg.ridAcc = .acc := if_pos rfl
  rw [exec_parse_firstByte hvalid hchan (by omega) hmarker (decodePacket_basets s.cfg), PktRow.instr, exec_pktRptBasets,
    hrid, hrow, exec_rptRow_known (by omega) rfl, ← State.vecBytes_of_present hcnt, ← s.vecReport_eq]
  rfl

/-! ### The end of a `PARSE` -/

/-- How a `PARSE` can end: nothing decoded, an identifier routed, a report's slot filled, a Gyro packet decoded. -/
inductive ParseEnd where
  | nothing (cls : PktClass) (c : Cause)
  | route (cls : PktClass) (rid : Byte)
  | slot (r : RptRow) (rid : Byte)
  | gyro

/-- What an end leaves of `s`. -/
def ParseEnd.apply (s : State) : ParseEnd → State
  | .nothing cls c => s.returningNone cls c
  | .route cls rid => s.returning cls rid
  | .slot r rid => (s.returning .sensor rid).fillSlot r
  | .gyro =>
    { s.returning .gyro s.cfg.ridGirv with
      quat := ⟨s.wordAt 0, s.wordAt 2, s.wordAt 4, s.wordAt 6, s.quat.radacc, s.quat.accy, s.quat.ts⟩
      fgyr := ⟨s.wordAt 8, s.wordAt 10, s.wordAt 12⟩ }

/-- The end of a sensor packet of report type `r` (R151, R153, R168). -/
def State.sensorEnd (s : State) (r : RptRow) : ParseEnd :=
  if s.rxcnt.toNat < 13 then .nothing .sensor .malformed
  else (reportId s.cfg r).elim (.nothing .sensor .badRid) (.slot r)

/-- The end of a Gyro-channel packet (R169, R170). -/
def State.gyroEnd (s : State) : ParseEnd :=
  if s.rxcnt.toNat < 14 then .nothing .gyro .malformed else .gyro

/-- The end of a packet of class row `r` (R132 to R144). -/
def State.rowEnd (s : State) : PktRow → ParseEnd
  | .cmd | .exe | .wake => .nothing .ignored .noDecoder
  | .ctlProdid => .route .prodid s.cfg.ridProductIdResponse
  | .ctlCmdresp => .route .cmdresp s.cfg.ridCommandResponse
  | .ctlFrsresp => .route .frsresp s.cfg.ridFrsReadResponse
  | .ctlOther | .rptOther => .nothing .ignored s.defaultCause
  | .rptBasets => s.sensorEnd (decodeReport s.cfg (s.readByte 5))
  | .gyro => s.gyroEnd
  | .badchan => .nothing .ignored .badChan

/-- The end of a `PARSE` in `s` (R130). -/
def State.parseEnd (s : State) : ParseEnd :=
  if s.rxvalid then s.rowEnd (decodePacket s.cfg s.rxchan s.firstByte) else .nothing .none .noPacket

theorem exec_rptRow_eq (r : RptRow) (s : State) : exec r.instr s = .next ((s.sensorEnd r).apply s) := by
  unfold State.sensorEnd
  by_cases hshort : s.rxcnt.toNat < 13
  · rw [exec_rptRow_short r hshort, if_pos hshort, ParseEnd.apply]
  · rw [if_neg hshort]
    cases hid : reportId s.cfg r with
    | none => exact exec_rptRow_unknown (by omega) hid
    | some rid => exact exec_rptRow_known (by omega) hid

theorem State.gyroPacket_eq (s : State) : s.gyroPacket = s.gyroEnd.apply s := by
  unfold State.gyroEnd
  split
  next hshort => exact State.gyroPacket_eq_returningNone hshort
  next hlong => exact State.gyroPacket_eq_returning (Nat.le_of_not_lt hlong)

theorem exec_pktRow_eq (r : PktRow) (s : State) : exec r.instr s = .next ((s.rowEnd r).apply s) := by
  cases r with
  | cmd | exe | wake => exact exec_undecoded (by simp [PktRow.instr]) s
  | ctlProdid | ctlCmdresp | ctlFrsresp => exact congrArg Host.Outcome.next (s.route_eq_returning _ _)
  | ctlOther | rptOther => exact exec_defaultRow (by simp [PktRow.instr]) s
  | rptBasets => exact (exec_pktRptBasets s).trans (exec_rptRow_eq _ s)
  | gyro => exact congrArg Host.Outcome.next s.gyroPacket_eq
  | badchan => exact exec_pktBadchan s

/-- `PARSE` does what its end says. -/
theorem exec_parse_eq (s : State) : exec .parse s = .next (s.parseEnd.apply s) := by
  unfold State.parseEnd
  cases hvalid : s.rxvalid with
  | false => exact exec_parse_none hvalid
  | true => exact (exec_parse_valid hvalid).trans (exec_pktRow_eq _ s)

/-! ### What a `PARSE` reports -/

/-- The identifier an end returns (R91). -/
def ParseEnd.id (cfg : Config) : ParseEnd → Option Byte
  | .nothing _ _ => none
  | .route _ rid => some rid
  | .slot _ rid => some rid
  | .gyro => some cfg.ridGirv

theorem mem_sensorIds_of_reportId {cfg : Config} {r : RptRow} {rid : Byte} (h : reportId cfg r = some rid) :
    rid ∈ cfg.sensorIds := by
  have hmem := List.mem_map_of_mem (f := reportId cfg) (mem_knownReports_of_reportId h)
  rw [knownReports_map_reportId, h] at hmem
  simpa using hmem

theorem State.sensorEnd_id {s : State} {r : RptRow} {rid : Byte} (h : (s.sensorEnd r).id s.cfg = some rid) :
    rid ∈ s.cfg.sensorIds := by
  unfold State.sensorEnd at h
  split at h
  · cases h
  · cases hid : reportId s.cfg r with
    | none => rw [hid] at h; cases h
    | some rid' =>
      rw [hid] at h
      cases h
      exact mem_sensorIds_of_reportId hid

theorem State.gyroEnd_id {s : State} {rid : Byte} (h : s.gyroEnd.id s.cfg = some rid) : rid = s.cfg.ridGirv := by
  unfold State.gyroEnd at h
  split at h <;> cases h
  rfl

/-- An end returns one of the identifiers of R9. -/
theorem State.rowEnd_id {s : State} {r : PktRow} {rid : Byte} (h : (s.rowEnd r).id s.cfg = some rid) :
    rid ∈ s.cfg.controlIds ++ s.cfg.sensorIds ++ [s.cfg.ridGirv] := by
  cases r with
  | cmd | exe | wake | ctlOther | rptOther | badchan => cases h
  | ctlProdid | ctlCmdresp | ctlFrsresp =>
    cases h
    simp [Config.controlIds]
  | rptBasets => exact List.mem_append_left _ (List.mem_append_right _ (State.sensorEnd_id h))
  | gyro => exact List.mem_append_right _ (List.mem_singleton.mpr (State.gyroEnd_id h))

/-- A legal configuration returns no identifier 0 (R9). -/
theorem State.parseEnd_id_ne_zero {s : State} (hcfg : s.cfg.WellFormed) {rid : Byte}
    (h : s.parseEnd.id s.cfg = some rid) : rid ≠ 0 := by
  unfold State.parseEnd at h
  split at h
  · exact hcfg.returnedNonzero rid (State.rowEnd_id h)
  · cases h

theorem ParseEnd.apply_of_id_none {e : ParseEnd} {s : State} (h : e.id s.cfg = none) :
    (e.apply s).res = .none ∧ (e.apply s).rdata = 0 ∧ (e.apply s).lastRid = 0 ∧ SameValueStore s (e.apply s) := by
  cases e with
  | nothing cls c => exact ⟨rfl, rfl, rfl, by constructor <;> rfl⟩
  | _ => cases h

theorem ParseEnd.apply_of_id_some {e : ParseEnd} {s : State} {rid : Byte} (h : e.id s.cfg = some rid) :
    (e.apply s).res = .ok ∧ (e.apply s).rdata = BitVec.ofNat 32 rid.toNat ∧ (e.apply s).lastRid = rid ∧
      (e.apply s).cause = .cNone := by
  cases e with
  | nothing => cases h
  | route => cases h; exact ⟨rfl, rfl, rfl, rfl⟩
  | slot r =>
    cases h
    obtain ⟨hres, hcause, hrdata, hrid, -⟩ := s.returning_fillSlot r rid
    exact ⟨hres, hrdata, hrid, hcause⟩
  | gyro => cases h; exact ⟨rfl, rfl, rfl, rfl⟩

/-- Settles O41: an end that returns no identifier leaves every slot, and one that returns an identifier reports it. -/
theorem parseThatReportsNothingLeavesTheValueStore : Obligations.ParseThatReportsNothingLeavesTheValueStore := by
  intro s t hcfg hexec
  cases (exec_parse_eq s).symm.trans hexec
  cases hid : s.parseEnd.id s.cfg with
  | none => exact .inl (ParseEnd.apply_of_id_none hid)
  | some rid =>
    obtain ⟨hres, hrdata, hrid, hcause⟩ := ParseEnd.apply_of_id_some hid
    have hne := State.parseEnd_id_ne_zero hcfg hid
    refine .inr ⟨hres, fun hzero => hne ?_, by rw [hrdata, hrid, BitVec.ofNat_toNat], hcause⟩
    rw [hrdata, ← BitVec.toNat_inj, BitVec.toNat_ofNat, Nat.mod_eq_of_lt (by omega)] at hzero
    exact BitVec.eq_of_toNat_eq hzero

/-! ### What a `PARSE` depends on -/

/-- The two states hold the same packet, as far as `PARSE` looks at it (R146). -/
structure SameHeld (s t : State) : Prop where
  valid : t.rxvalid = s.rxvalid
  chan : t.rxchan = s.rxchan
  cnt : t.rxcnt = s.rxcnt
  cfg : t.cfg = s.cfg
  bytes : ∀ a, a < s.rxcnt.toNat → t.readByte a = s.readByte a

theorem SameBlock.sameHeld {s t : State} (h : SameBlock s t) : SameHeld s t :=
  ⟨h.packet.rxvalid, h.packet.rxchan, h.packet.rxcnt, h.inst.cfg, fun a _ => h.sameBuf a⟩

theorem SameHeld.firstByte {s t : State} (h : SameHeld s t) : t.firstByte = s.firstByte := by
  rw [State.firstByte, State.firstByte, h.cnt]
  split
  · rw [h.bytes 0 (by omega)]
  · rfl

/-- A short packet is malformed whatever its byte 5, and a longer one holds that byte. -/
theorem SameHeld.sensorEnd {s t : State} (h : SameHeld s t) :
    t.sensorEnd (decodeReport t.cfg (t.readByte 5)) = s.sensorEnd (decodeReport s.cfg (s.readByte 5)) := by
  rw [State.sensorEnd, State.sensorEnd, h.cnt, h.cfg]
  split
  · rfl
  · rw [h.bytes 5 (by omega)]

theorem SameHeld.rowEnd {s t : State} (h : SameHeld s t) (r : PktRow) : t.rowEnd r = s.rowEnd r := by
  cases r with
  | rptBasets => exact h.sensorEnd
  | _ => simp only [State.rowEnd, State.gyroEnd, State.defaultCause, h.cnt, h.cfg]

/-- The held packet and the configuration decide the end (R145 (b)). -/
theorem SameHeld.parseEnd {s t : State} (h : SameHeld s t) : t.parseEnd = s.parseEnd := by
  rw [State.parseEnd, State.parseEnd, h.valid, h.rowEnd, h.cfg, h.chan, h.firstByte]

/-- An end writes what a `PARSE` may, and nothing else. -/
theorem State.sameBlock_parse (s : State) : SameBlock s (s.parseEnd.apply s) := by
  obtain ⟨t, hexec, hparsed⟩ := exec_parsed (i := .parse) rfl s
  cases (exec_parse_eq s).symm.trans hexec
  exact hparsed.sameBlock

/-- An end reads nothing that it writes. -/
theorem ParseEnd.apply_apply (e : ParseEnd) (s : State) : e.apply (e.apply s) = e.apply s := by
  cases e with
  | slot r => cases r <;> rfl
  | _ => rfl

/-- Settles O42: the second `PARSE` finds the packet of the first, so it has the same end. -/
theorem parseTwiceIsParseOnce : Obligations.ParseTwiceIsParseOnce := by
  intro s t hexec
  cases (exec_parse_eq s).symm.trans hexec
  rw [exec_parse_eq, s.sameBlock_parse.sameHeld.parseEnd, ParseEnd.apply_apply]

/-! ### What the ends read of the packet -/

theorem SameHeld.wordAt {s t : State} (h : SameHeld s t) {a : Nat} (ha : a + 1 < s.rxcnt.toNat) :
    t.wordAt a = s.wordAt a := by
  rw [State.wordAt, State.wordAt, h.bytes a (by omega), h.bytes (a + 1) ha]

/-- A data word is read if the packet holds it, and is 0 otherwise (R78). -/
theorem SameHeld.dataWord {s t : State} (h : SameHeld s t) (hcnt : 13 ≤ s.rxcnt.toNat) (k : Nat) :
    t.dataWord k = s.dataWord k := by
  have hwords : t.wordsPresent = s.wordsPresent := by rw [State.wordsPresent, State.wordsPresent, h.cnt]
  rw [State.dataWord, State.dataWord, hwords]
  split
  next hk =>
    unfold State.wordsPresent at hk
    rw [State.le16_eq_wordAt, State.le16_eq_wordAt, h.wordAt (by omega)]
  next => rfl

theorem SameHeld.reportAccy {s t : State} (h : SameHeld s t) (hcnt : 13 ≤ s.rxcnt.toNat) :
    t.reportAccy = s.reportAccy := by
  rw [State.reportAccy, State.reportAccy, h.bytes 7 (by omega)]

theorem SameHeld.reportTs {s t : State} (h : SameHeld s t) (hcnt : 13 ≤ s.rxcnt.toNat) : t.reportTs = s.reportTs := by
  rw [State.reportTs_eq_stampBytes, State.reportTs_eq_stampBytes, State.stampBytes, State.stampBytes,
    h.bytes 1 (by omega), h.bytes 2 (by omega), h.bytes 3 (by omega), h.bytes 4 (by omega)]

theorem SameHeld.vecReport {s t : State} (h : SameHeld s t) (hcnt : 13 ≤ s.rxcnt.toNat) : t.vecReport = s.vecReport := by
  simp only [State.vecReport, h.dataWord hcnt, h.reportAccy hcnt, h.reportTs hcnt]

theorem SameHeld.quatReport {s t : State} (h : SameHeld s t) (hcnt : 13 ≤ s.rxcnt.toNat) :
    t.quatReport = s.quatReport := by
  simp only [State.quatReport, h.dataWord hcnt, h.reportAccy hcnt, h.reportTs hcnt]

theorem SameHeld.scalarReport {s t : State} (h : SameHeld s t) (hcnt : 13 ≤ s.rxcnt.toNat) (p : ScalSel) :
    t.scalarReport p = s.scalarReport p := by
  simp only [State.scalarReport, State.scal, h.dataWord hcnt, h.reportAccy hcnt, h.reportTs hcnt]

/-- A slot write keeps two Value Stores the same. -/
theorem SameValueStore.fillSlot {s t : State} (hstore : SameValueStore s t) (h : SameHeld s t)
    (hcnt : 13 ≤ s.rxcnt.toNat) (r : RptRow) : SameValueStore (s.fillSlot r) (t.fillSlot r) := by
  have hscal (p : ScalSel) := h.scalarReport hcnt p
  cases r with
  | acc => exact { hstore with acc := h.vecReport hcnt }
  | lin => exact { hstore with lin := h.vecReport hcnt }
  | gyr => exact { hstore with gyr := h.vecReport hcnt }
  | mag => exact { hstore with mag := h.vecReport hcnt }
  | rv | rvv1 | rvv2 | rvv3 => exact { hstore with quat := h.quatReport hcnt }
  | step => exact { hstore with stepCnt := by rw [State.fillSlot, State.fillSlot, h.cfg]; exact hscal _ }
  | stab => exact { hstore with stab := by rw [State.fillSlot, State.fillSlot, h.cfg]; exact hscal _ }
  | act => exact { hstore with act := by rw [State.fillSlot, State.fillSlot, h.cfg]; exact hscal _ }
  | rawacc => exact { hstore with rawacc := h.vecReport hcnt }
  | rawgyr => exact { hstore with rawgyr := h.vecReport hcnt }
  | rawmag => exact { hstore with rawmag := h.vecReport hcnt }
  | other => exact hstore

/-! ### Two states with the same packet end the same -/

/-- The two states report the same and hold the same Value Store. -/
structure SameReport (s t : State) : Prop where
  res : t.res = s.res
  rdata : t.rdata = s.rdata
  cause : t.cause = s.cause
  verdict : SameVerdict s t
  store : SameValueStore s t

/-- The payload bytes an end needs (R151, R169). -/
def ParseEnd.needs : ParseEnd → Nat
  | .nothing _ _ => 0
  | .route _ _ => 0
  | .slot _ _ => 13
  | .gyro => 14

theorem State.needs_sensorEnd (s : State) (r : RptRow) : (s.sensorEnd r).needs ≤ s.rxcnt.toNat := by
  unfold State.sensorEnd
  split
  · exact Nat.zero_le _
  next hlong =>
    cases reportId s.cfg r with
    | none => exact Nat.zero_le _
    | some rid => exact Nat.le_of_not_lt hlong

theorem State.needs_gyroEnd (s : State) : s.gyroEnd.needs ≤ s.rxcnt.toNat := by
  unfold State.gyroEnd
  split
  · exact Nat.zero_le _
  next hlong => exact Nat.le_of_not_lt hlong

theorem State.needs_rowEnd (s : State) (r : PktRow) : (s.rowEnd r).needs ≤ s.rxcnt.toNat := by
  cases r with
  | rptBasets => exact s.needs_sensorEnd _
  | gyro => exact s.needs_gyroEnd
  | _ => exact Nat.zero_le _

theorem State.needs_parseEnd (s : State) : s.parseEnd.needs ≤ s.rxcnt.toNat := by
  unfold State.parseEnd
  split
  · exact s.needs_rowEnd _
  · exact Nat.zero_le _

theorem ParseEnd.sameReport_slot {s t : State} (h : SameHeld s t) (hstore : SameValueStore s t) (r : RptRow) (rid : Byte)
    (hcnt : 13 ≤ s.rxcnt.toNat) : SameReport ((ParseEnd.slot r rid).apply s) ((ParseEnd.slot r rid).apply t) := by
  obtain ⟨hres, hcause, hrdata, hrid, hcls, -⟩ := s.returning_fillSlot r rid
  obtain ⟨hres', hcause', hrdata', hrid', hcls', -⟩ := t.returning_fillSlot r rid
  have hheld : SameHeld (s.returning .sensor rid) (t.returning .sensor rid) :=
    ⟨h.valid, h.chan, h.cnt, h.cfg, h.bytes⟩
  have hprior : SameValueStore (s.returning .sensor rid) (t.returning .sensor rid) := { hstore with }
  exact ⟨hres'.trans hres.symm, hrdata'.trans hrdata.symm, hcause'.trans hcause.symm,
    ⟨hcls'.trans hcls.symm, hrid'.trans hrid.symm⟩, hprior.fillSlot hheld hcnt r⟩

theorem ParseEnd.sameReport_gyro {s t : State} (h : SameHeld s t) (hstore : SameValueStore s t)
    (hcnt : 14 ≤ s.rxcnt.toNat) : SameReport (ParseEnd.gyro.apply s) (ParseEnd.gyro.apply t) := by
  have hword (a : Nat) (ha : a ≤ 12) : t.wordAt a = s.wordAt a := h.wordAt (by omega)
  simp only [ParseEnd.apply, hword _ (by decide : 0 ≤ 12), hword _ (by decide : 2 ≤ 12), hword _ (by decide : 4 ≤ 12),
    hword _ (by decide : 6 ≤ 12), hword _ (by decide : 8 ≤ 12), hword _ (by decide : 10 ≤ 12),
    hword _ (by decide : 12 ≤ 12), h.cfg, hstore.quat]
  exact ⟨rfl, rfl, rfl, ⟨rfl, rfl⟩, { hstore with quat := rfl, fgyr := rfl }⟩

/-- An end reads the packet, the configuration and the Value Store alone. -/
theorem ParseEnd.sameReport {s t : State} (h : SameHeld s t) (hstore : SameValueStore s t) (e : ParseEnd)
    (hneeds : e.needs ≤ s.rxcnt.toNat) : SameReport (e.apply s) (e.apply t) := by
  cases e with
  | nothing => exact ⟨rfl, rfl, rfl, ⟨rfl, rfl⟩, { hstore with }⟩
  | route => exact ⟨rfl, rfl, rfl, ⟨rfl, rfl⟩, { hstore with }⟩
  | slot r rid => exact ParseEnd.sameReport_slot h hstore r rid hneeds
  | gyro => exact ParseEnd.sameReport_gyro h hstore hneeds

/-- Settles O43: the two states have the same end, which needs no byte beyond the packet. -/
theorem parseDependsOnTheHeldPacketAlone : Obligations.ParseDependsOnTheHeldPacketAlone := by
  intro s1 s2 t1 t2 hvalid hchan hcnt hcfg hbytes hstore hexec1 hexec2
  have hheld : SameHeld s1 s2 := ⟨hvalid, hchan, hcnt, hcfg, hbytes⟩
  cases (exec_parse_eq s1).symm.trans hexec1
  cases (exec_parse_eq s2).symm.trans hexec2
  rw [hheld.parseEnd]
  obtain ⟨hres, hrdata, hcause, hverdict, hsame⟩ := ParseEnd.sameReport hheld hstore s1.parseEnd s1.needs_parseEnd
  exact ⟨hres, hrdata, hcause, hverdict, hsame⟩

end Sys2Proof.Machine
end

section
/-! PROOFS. The conversion of `CVT` (44_qformat.md R180 to R183): the fields of a packed pattern, the number each packing
stands for, then O50. -/

namespace Sys2Proof.Machine

open Sys2Proof

/-! ### The fields of a packed pattern -/

/-- A sign, an exponent and a fraction packed as R182 packs them are read back from the pattern. -/
theorem f32_fields (r : Int) {expo frac : Nat} (hexpo : expo < 2 ^ 8) (hfrac : frac < 2 ^ 23) :
    let w : Word := BitVec.ofNat 32 (f32sign r ||| (expo <<< 23) ||| frac)
    w.getLsbD 31 = decide (r < 0) ∧ (w.toNat >>> 23) &&& 0xFF = expo ∧ w.toNat &&& 0x7FFFFF = frac := by
  intro w
  obtain ⟨sign, hsign, hbit, hone⟩ : ∃ sign, f32sign r = sign <<< 31 ∧ (sign = 1 ↔ r < 0) ∧ sign ≤ 1 := by
    unfold f32sign
    split
    next hneg => exact ⟨1, rfl, by simp [hneg], le_rfl⟩
    next hpos => exact ⟨0, rfl, by simp [hpos], Nat.zero_le 1⟩
  have hlow : expo <<< 23 + frac < 2 ^ 31 := by rw [Nat.shiftLeft_eq]; omega
  have hw : w.toNat = sign * 2 ^ 31 + (expo * 2 ^ 23 + frac) := by
    rw [BitVec.toNat_ofNat, hsign, Nat.or_assoc, ← Nat.shiftLeft_add_eq_or_of_lt hfrac,
      ← Nat.shiftLeft_add_eq_or_of_lt hlow, Nat.shiftLeft_eq, Nat.shiftLeft_eq]
    omega
  refine ⟨?sign, ?expo, ?frac⟩
  case sign =>
    rw [BitVec.getLsbD, Nat.testBit_eq_decide_div_mod_eq, hw, decide_eq_decide, ← hbit]
    omega
  case expo =>
    rw [show (0xFF : Nat) = 2 ^ 8 - 1 from rfl, Nat.and_two_pow_sub_one_eq_mod, Nat.shiftRight_eq_div_pow, hw]
    omega
  case frac =>
    rw [show (0x7FFFFF : Nat) = 2 ^ 23 - 1 from rfl, Nat.and_two_pow_sub_one_eq_mod, hw]
    omega

/-- A sign and a magnitude make the integer they were taken from. -/
theorem sign_mul_natAbs (r : Int) : (if r < 0 then -1 else 1 : Rat) * r.natAbs = r := by
  rw [Nat.cast_natAbs]
  split
  next hneg => rw [abs_of_neg hneg]; push_cast; ring
  next hpos => rw [abs_of_nonneg (not_lt.mp hpos), one_mul]

/-- A subnormal pattern stands for its fraction over `2 ^ 149` (R182). -/
theorem f32value_subnormal {r : Int} {frac : Nat} {w : Word} (hsign : w.getLsbD 31 = decide (r < 0))
    (hexpo : (w.toNat >>> 23) &&& 0xFF = 0) (hfrac : w.toNat &&& 0x7FFFFF = frac) :
    f32value w = (if r < 0 then -1 else 1) * (frac : Rat) / (2 : Rat) ^ 149 := by
  simp only [f32value, hsign, hexpo, hfrac, if_true, decide_eq_true_eq]

/-- A normal pattern stands for its fraction with the leading bit, scaled by its exponent (R182). -/
theorem f32value_normal {r : Int} {expo frac : Nat} {w : Word} (hsign : w.getLsbD 31 = decide (r < 0))
    (hexpo : (w.toNat >>> 23) &&& 0xFF = expo) (hfrac : w.toNat &&& 0x7FFFFF = frac) (hne : expo ≠ 0) :
    f32value w =
      (if r < 0 then -1 else 1) * ((2 ^ 23 + frac : Nat) : Rat) * (2 : Rat) ^ expo / (2 : Rat) ^ 150 := by
  simp only [f32value, hsign, hexpo, hfrac, if_neg hne, decide_eq_true_eq]
  rfl

/-! ### The two packings -/

/-- The pattern is neither infinity nor NaN, and stands for `x` (R182, R183). -/
def Represents (w : Word) (x : Rat) : Prop := f32value w = x ∧ (w.toNat >>> 23) &&& 0xFF ≠ 0xFF

/-- A magnitude brought to a leading bit 23 is that bit and the fraction (R182). -/
theorem normalized_fraction {m : Nat} (hm : m ≠ 0) (hbits : m.log2 ≤ 23) :
    2 ^ 23 + ((m <<< (23 - m.log2)) &&& 0x7FFFFF) = m * 2 ^ (23 - m.log2) := by
  have hlow : 2 ^ m.log2 * 2 ^ (23 - m.log2) ≤ m * 2 ^ (23 - m.log2) := Nat.mul_le_mul_right _ (Nat.log2_self_le hm)
  have hhigh : m * 2 ^ (23 - m.log2) < 2 ^ (m.log2 + 1) * 2 ^ (23 - m.log2) :=
    Nat.mul_lt_mul_of_pos_right Nat.lt_log2_self (Nat.two_pow_pos _)
  rw [← pow_add, show m.log2 + (23 - m.log2) = 23 by omega] at hlow
  rw [← pow_add, show m.log2 + 1 + (23 - m.log2) = 24 by omega] at hhigh
  rw [show (0x7FFFFF : Nat) = 2 ^ 23 - 1 from rfl, Nat.and_two_pow_sub_one_eq_mod, Nat.shiftLeft_eq]
  omega

/-- `f32bits` as a normal number (R182). -/
theorem represents_f32bits_normal {r : Int} {q : Nat} (hr : r ≠ 0) (hbits : r.natAbs.log2 ≤ 23)
    (hq : q ≤ r.natAbs.log2 + 126) :
    Represents (f32bits r q) ((r : Rat) / 2 ^ q) := by
  have hpack : f32bits r q = BitVec.ofNat 32 (f32sign r ||| ((r.natAbs.log2 + 127 - q) <<< 23) |||
      ((r.natAbs <<< (23 - r.natAbs.log2)) &&& 0x7FFFFF)) := by
    rw [f32bits, if_neg hr, if_pos hq]
  have hfrac : (r.natAbs <<< (23 - r.natAbs.log2)) &&& 0x7FFFFF < 2 ^ 23 := Nat.and_lt_two_pow _ (by decide)
  obtain ⟨hsign, hexpo, hfraction⟩ := f32_fields r (expo := r.natAbs.log2 + 127 - q) (by omega) hfrac
  rw [← hpack] at hsign hexpo hfraction
  refine ⟨?value, by rw [hexpo]; omega⟩
  case value =>
    rw [f32value_normal hsign hexpo hfraction (by omega), normalized_fraction (Int.natAbs_ne_zero.mpr hr) hbits]
    have hscale : (2 : Rat) ^ 150 =
        2 ^ (23 - r.natAbs.log2) * 2 ^ (r.natAbs.log2 + 127 - q) * 2 ^ q := by
      rw [← pow_add, ← pow_add]
      congr 1
      omega
    rw [hscale, ← sign_mul_natAbs r]
    push_cast
    field_simp

/-- `f32bits` as a subnormal number (R182). -/
theorem represents_f32bits_subnormal {r : Int} {q : Nat} (hr : r ≠ 0) (hq : r.natAbs.log2 + 126 < q) (hq' : q ≤ 149) :
    Represents (f32bits r q) ((r : Rat) / 2 ^ q) := by
  have hpack : f32bits r q = BitVec.ofNat 32 (f32sign r ||| (0 <<< 23) ||| (r.natAbs <<< (149 - q))) := by
    rw [f32bits, if_neg hr, if_neg (by omega), Nat.zero_shiftLeft, Nat.or_zero]
  have hfrac : r.natAbs <<< (149 - q) < 2 ^ 23 := by
    rw [Nat.shiftLeft_eq]
    calc r.natAbs * 2 ^ (149 - q)
        < 2 ^ (r.natAbs.log2 + 1) * 2 ^ (149 - q) := Nat.mul_lt_mul_of_pos_right Nat.lt_log2_self (Nat.two_pow_pos _)
      _ = 2 ^ (r.natAbs.log2 + 1 + (149 - q)) := (pow_add ..).symm
      _ ≤ 2 ^ 23 := Nat.pow_le_pow_right (by decide) (by omega)
  obtain ⟨hsign, hexpo, hfraction⟩ := f32_fields r (expo := 0) (by decide) hfrac
  rw [← hpack] at hsign hexpo hfraction
  refine ⟨?value, by rw [hexpo]; decide⟩
  case value =>
    have hscale : (2 : Rat) ^ 149 = 2 ^ (149 - q) * 2 ^ q := by
      rw [← pow_add, Nat.sub_add_cancel hq']
    rw [f32value_subnormal hsign hexpo hfraction, Nat.shiftLeft_eq, hscale, ← sign_mul_natAbs r]
    push_cast
    field_simp

theorem represents_f32bits_zero (q : Nat) : Represents (f32bits 0 q) 0 := by
  have hbits : f32bits 0 q = 0 := by rw [f32bits, if_pos rfl]
  rw [hbits]
  exact ⟨by simp [f32value], by decide⟩

/-! ### The conversion -/

/-- A 16-bit pattern has a magnitude of 32768 at most (R12). -/
theorem natAbs_s16_le (raw : Half) : (s16 raw).natAbs ≤ 2 ^ 15 := by
  have hraw := raw.isLt
  unfold s16
  split <;> omega

theorem represents_f32bits_s16 (raw : Half) {q : Nat} (hq : q ≤ 149) :
    Represents (f32bits (s16 raw) q) ((s16 raw : Rat) / 2 ^ q) := by
  have hmagnitude := natAbs_s16_le raw
  generalize s16 raw = r at *
  by_cases hzero : r = 0
  · subst hzero
    simpa using represents_f32bits_zero q
  · have hbits : r.natAbs.log2 < 24 := (Nat.log2_lt (Int.natAbs_ne_zero.mpr hzero)).mpr (by omega)
    rcases Nat.lt_or_ge (r.natAbs.log2 + 126) q with hsub | hnormal
    · exact represents_f32bits_subnormal hzero hsub hq
    · exact represents_f32bits_normal hzero (by omega) hnormal

/-- Settles O50: zero, a normal and a subnormal pattern, each read back by its fields. -/
theorem conversionIsExact : Obligations.ConversionIsExact := by
  intro s raw q hq
  obtain ⟨hvalue, hfinite⟩ := represents_f32bits_s16 raw hq
  refine ⟨f32bits (s16 raw) q.toNat, ?_, hvalue, hfinite⟩
  rw [exec_cvt, convert_upto_149 hq, State.access_some]
  rfl

end Sys2Proof.Machine
end

section
/-! PROOFS. The read operations, and what is left of `SEND` and `POLL` (44_qformat.md R192, 45_host_access.md R200, R202,
R204, 40_framer_tx.md R107): O55, O59, O26 and O60. -/

namespace Sys2Proof.Machine

open Sys2Proof

/-! ### Reads -/

/-- `i` reads `f`: it answers that value or refuses, and neither the cause nor the result ports have a part in it. -/
structure Reads (i : Instr) (f : State → Option Word) : Prop where
  answers : ∀ s, exec i s = .next (s.access (f s))
  unreported : ∀ c r d s, f (State.report c r d s) = f s

theorem State.access_access (v : Option Word) (s : State) : (s.access v).access v = s.access v := by
  cases v <;> rfl

/-- A read right after itself finds what it answered from, and answers the same (R192). -/
theorem Reads.again {i : Instr} {f : State → Option Word} (h : Reads i f) (s : State) :
    exec i (s.access (f s)) = .next (s.access (f s)) := by
  obtain ⟨c, r, d, haccess⟩ := State.access_frame (f s) s
  have hsame : f (s.access (f s)) = f s := by rw [haccess, h.unreported]
  rw [h.answers, hsame, State.access_access]

/-- A read leaves all but the cause and the result ports (R192). -/
theorem State.access_unreported (v : Option Word) (s : State) :
    { s.access v with cause := s.cause, res := s.res, rdata := s.rdata } = s := by
  obtain ⟨c, r, d, haccess⟩ := State.access_frame v s
  rw [haccess]
  rfl

/-- Of the registers of `RDSR`, `CAUSE` alone is one that a report writes (R46, R202). -/
theorem State.statusReg_report {sel : Byte} (hsel : sel ≠ 0x15) (c : Cause) (r : Res) (d : Word) (s : State) :
    (s.report c r d).statusReg sel = s.statusReg sel := by
  unfold State.statusReg
  split
  case h_12 hcause => exact absurd (BitVec.eq_of_toNat_eq hcause) hsel
  all_goals rfl

theorem State.ldbByte_report (addr : Half) (c : Cause) (r : Res) (d : Word) (s : State) :
    (if addr.toNat < (s.report c r d).cfg.maxPayload then some (((s.report c r d).readByte addr.toNat).setWidth 32)
      else none) =
    (if addr.toNat < s.cfg.maxPayload then some ((s.readByte addr.toNat).setWidth 32) else none : Option Word) := by
  rw [State.readByte_report, State.report_cfg]

/-- Settles O55: each of the operations is a read. -/
theorem readsChangeOnlyTheCause : Obligations.ReadsChangeOnlyTheCause := by
  intro s t u i hi hexec hagain
  obtain ⟨f, hreads⟩ : ∃ f, Reads i f := by
    rcases hi with ⟨raw, q, rfl⟩ | ⟨slot, comp, rfl⟩ | ⟨slot, comp, rfl⟩ | ⟨slot, rfl⟩ | ⟨slot, rfl⟩ | ⟨addr, rfl⟩ |
      ⟨sel, rfl, hsel⟩
    · exact ⟨_, exec_cvt raw q, fun _ _ _ _ => rfl⟩
    · exact ⟨_, exec_getr slot comp, fun _ _ _ _ => rfl⟩
    · exact ⟨_, exec_getf slot comp, fun _ _ _ _ => rfl⟩
    · exact ⟨_, exec_geta slot, fun _ _ _ _ => rfl⟩
    · exact ⟨_, exec_gett slot, fun _ _ _ _ => rfl⟩
    · exact ⟨_, fun _ => rfl, State.ldbByte_report addr⟩
    · exact ⟨_, exec_rdsr sel, State.statusReg_report hsel⟩
  cases (hreads.answers s).symm.trans hexec
  cases (hreads.again s).symm.trans hagain
  exact ⟨s.access_unreported (f s), rfl⟩

/-- `RDSR` of `CAUSE` answers the code of the cause and clears it (R202). -/
theorem exec_rdsr_cause (s : State) :
    exec (.rdsr 0x15) s = .next (s.report .cNone .ok (s.cause.code.setWidth 32)) := rfl

/-- Settles O59. -/
theorem rdsrCauseTwiceAnswersTheCauseThenNone : Obligations.RdsrCauseTwiceAnswersTheCauseThenNone := by
  intro s t hexec
  cases (exec_rdsr_cause s).symm.trans hexec
  refine ⟨?code, _, exec_rdsr_cause _, rfl, rfl⟩
  case code => exact BitVec.toNat_setWidth_of_le (by decide)

/-! ### The shortest and the longest `SEND` -/

/-- Behind its header a packet is the buffer, byte by byte (R108). -/
theorem State.getElem?_packet (header : List Byte) {n k : Nat} (h : k < n) (s : State) :
    (header ++ (List.range n).map s.readByte)[header.length + k]? = some (s.readByte k) := by
  rw [List.getElem?_append_right (Nat.le_add_right ..), Nat.add_sub_cancel_left, List.getElem?_map,
    List.getElem?_range h, Option.map_some]

/-- Settles O26: two lengths of the packet of O24. -/
theorem sendOfTheEmptyAndTheFullPayload : Obligations.SendOfTheEmptyAndTheFullPayload := by
  intro s ch hmax hch
  refine ⟨?empty, ?full⟩
  case empty =>
    obtain ⟨t, hexec, htrace, hcount, -⟩ := sendWritesOnePacketAndCountsIt s ch 0 hch (Nat.zero_le _)
    exact ⟨t, hexec, hcount, _, htrace⟩
  case full =>
    obtain ⟨t, hexec, htrace, -⟩ := sendWritesOnePacketAndCountsIt s ch 270 hch (by rw [hmax]; decide)
    refine ⟨t, hexec, _, _, htrace, by simp, rfl, fun k hk => State.getElem?_packet _ hk s⟩

/-! ### `POLL` -/

theorem State.recv_rdata (s : State) : s.recv.rdata = 0 := by
  obtain ⟨_, _, _, _, _, _, _, _, _, _, _, _, _, _, hrecv, -⟩ := s.recv_cases
  rw [hrecv]

/-- Settles O60. -/
theorem pollIsRecvThenParse : Obligations.PollIsRecvThenParse := by
  intro s t hexec
  obtain rfl : s.recv = t := Host.Outcome.next.inj hexec
  exact ⟨fun hok => if_pos hok, fun hnot => ⟨if_neg hnot, s.recv_rdata⟩⟩

end Sys2Proof.Machine
end
